-- ==== Sys2Proof/Word.lean ====
section
/-! DEFINITION. The value types of the block (spec/00_scope.md R10, R11): unsigned integers of fixed width and finite
byte sequences. All arithmetic is unsigned. -/

namespace Sys2Proof

/-- u4: a control-flags value or an endpoint nibble (R10). -/
abbrev U4 := BitVec 4
/-- u8: a byte (R10). -/
abbrev U8 := BitVec 8
/-- u16: a CRC value (R10). -/
abbrev U16 := BitVec 16
/-- u32: a timestamp (R10). -/
abbrev U32 := BitVec 32
/-- A byte sequence: "a finite list of u8" (R11). -/
abbrev Bytes := List U8

/-- PAYLOAD_MAX: largest payload length (R7). -/
abbrev PAYLOAD_MAX : Nat := 255

end Sys2Proof
end

