-- ==== Sys2Proof/Syntax.lean ====
section
/-! DEFINITION. The operation interface of spec/30_encoding.md section 1: the operand records, the command as the host
issues it, and the nine operations of R71 (one constructor per row of spec/opcode_table.json). -/

namespace Sys2Proof

/-- The encoder's operand record (R32). The payload bound of R32 is checked by `Frame.wf`. -/
structure Frame where
  flags : U4
  endpoint : U4
  message_id : U8
  payload : Bytes
  timestamp : U32
  rssi : U8
deriving DecidableEq, Repr

/-- An operand record (R73): none, a u8, a byte sequence or a Frame. Operands are typed records, not bit fields of the
command word (R70). -/
inductive Operand where
  | none
  | u8 (b : U8)
  | bytes (s : Bytes)
  | frame (f : Frame)
deriving DecidableEq, Repr

/-- An operation as the host issues it (R70): the 8-bit command word (format CMD, field op = bits 7:0) and an operand
record. -/
structure Request where
  op : U8
  operand : Operand
deriving DecidableEq, Repr

/-- The operations of R71. -/
inductive Instr where
  /-- CRC_INIT, code 0x01 (R103). -/
  | crcInit
  /-- CRC_UPDATE b, code 0x02 (R104). -/
  | crcUpdate (b : U8)
  /-- CRC_READ, code 0x03 (R105). -/
  | crcRead
  /-- CRC16 s, code 0x04 (R106). -/
  | crc16 (s : Bytes)
  /-- ENCODE f, code 0x10 (R121). -/
  | encode (f : Frame)
  /-- DEC_START buf, code 0x20 (R141). -/
  | decStart (buf : Bytes)
  /-- DEC_STEP, code 0x21 (R146). -/
  | decStep
  /-- DECODE buf, code 0x22 (R143). -/
  | decode (buf : Bytes)
  /-- DEC_STATUS, code 0x23 (R149). -/
  | decStatus
deriving DecidableEq, Repr

/-- EndpointID: "a closed enumeration of the subsystem addressed by a frame" (R83). -/
inductive EndpointID where
  /-- 0x01 device-management. -/
  | devMgmt
  /-- 0x02 radio-link. -/
  | radioLink
  /-- 0x03 radio-link-test. -/
  | radioLinkTest
  /-- 0x04 hardware-test. -/
  | hwTest
deriving DecidableEq, Repr

end Sys2Proof
end

