-- ==== Sys2Proof/WellFormed.lean ====
section
/-! DEFINITION. Which operations the host can present. Every field is bounded by its type (R73) but one: the payload of
a Frame (R32; 93_implementation_defined.md U4). A buffer longer than P_BUF_MAX is NOT ill-formed: the operation is
presented and answers REFUSED (R141). -/

namespace Sys2Proof

/-- R32: "A payload longer than 255 bytes is not a value of this record." -/
def Frame.wf (f : Frame) : Bool := decide (f.payload.length ≤ PAYLOAD_MAX)

/-- An operation whose operand record is one the host can present (R32, R73). -/
def Instr.WellFormed : Instr → Bool
  | .crcInit => true
  | .crcUpdate _ => true
  | .crcRead => true
  | .crc16 _ => true
  | .encode f => f.wf
  | .decStart _ => true
  | .decStep => true
  | .decode _ => true
  | .decStatus => true

end Sys2Proof
end

