-- ==== Sys2Proof/Decode.lean ====
section
/-! DEFINITION. From a command word and operand record to an operation, and back (spec/30_encoding.md R70 to R73, and
spec/opcode_table.json). The decoder is total: it names each reason for which it gives no operation. -/

namespace Sys2Proof

/-- Why the decoder gives no operation. -/
inductive DecodeError where
  /-- "Every code not in rule R71 ... is illegal" (R72). The block answers ILLEGAL_OP. -/
  | illegalOp (op : U8)
  /-- The operand record is not the one the code calls for (R70). The host cannot issue this (log 3). -/
  | operandMismatch
  /-- The Frame's payload has more than 255 bytes (R32, U4). The host cannot present this (log 4). -/
  | payloadTooLong
deriving DecidableEq, Repr

/-- An operation without an operand (R71, column operand: none). -/
def takeNone (i : Instr) : Operand → Except DecodeError Instr
  | .none => .ok i
  | _ => .error .operandMismatch

/-- An operation with a u8 operand: "one byte, taken as is" (R73). -/
def takeU8 (k : U8 → Instr) : Operand → Except DecodeError Instr
  | .u8 b => .ok (k b)
  | _ => .error .operandMismatch

/-- An operation with a byte-sequence operand: "a finite list of u8" (R73). -/
def takeBytes (k : Bytes → Instr) : Operand → Except DecodeError Instr
  | .bytes s => .ok (k s)
  | _ => .error .operandMismatch

/-- An operation with a Frame operand, "range-checked by their types" (R73); the payload bound is checked here (U4). -/
def takeFrame (k : Frame → Instr) : Operand → Except DecodeError Instr
  | .frame f => if f.wf then .ok (k f) else .error .payloadTooLong
  | _ => .error .operandMismatch

/-- The operation a request stands for: `op == code`, mask 0xFF (R71). -/
def decode (r : Request) : Except DecodeError Instr :=
  if r.op = 0x01 then takeNone .crcInit r.operand
  else if r.op = 0x02 then takeU8 .crcUpdate r.operand
  else if r.op = 0x03 then takeNone .crcRead r.operand
  else if r.op = 0x04 then takeBytes .crc16 r.operand
  else if r.op = 0x10 then takeFrame .encode r.operand
  else if r.op = 0x20 then takeBytes .decStart r.operand
  else if r.op = 0x21 then takeNone .decStep r.operand
  else if r.op = 0x22 then takeBytes .decode r.operand
  else if r.op = 0x23 then takeNone .decStatus r.operand
  else .error (.illegalOp r.op)

/-- The operation code of R71. -/
def opCode : Instr → U8
  | .crcInit => 0x01
  | .crcUpdate _ => 0x02
  | .crcRead => 0x03
  | .crc16 _ => 0x04
  | .encode _ => 0x10
  | .decStart _ => 0x20
  | .decStep => 0x21
  | .decode _ => 0x22
  | .decStatus => 0x23

/-- The operand record of R71. -/
def operandOf : Instr → Operand
  | .crcInit => .none
  | .crcUpdate b => .u8 b
  | .crcRead => .none
  | .crc16 s => .bytes s
  | .encode f => .frame f
  | .decStart buf => .bytes buf
  | .decStep => .none
  | .decode buf => .bytes buf
  | .decStatus => .none

/-- The request that issues an operation: its command word and its operand record (R70, R71). -/
def encode (i : Instr) : Request := { op := opCode i, operand := operandOf i }

/-- The operand record a code calls for, with every value in it zero or empty. -/
def zeroOperand (op : U8) : Operand :=
  if op = 0x02 then .u8 0
  else if op = 0x04 ∨ op = 0x20 ∨ op = 0x22 then .bytes []
  else if op = 0x10 then
    .frame { flags := 0, endpoint := 0, message_id := 0, payload := [], timestamp := 0, rssi := 0 }
  else .none

/-- The request with command word w and a zero operand record (log 2). -/
def Request.ofWord (nbits w : Nat) : Request :=
  let op := BitVec.ofNat 8 (w % 2 ^ nbits)
  { op := op, operand := zeroOperand op }

/-- The operation the decoder reads from a command word of `nbits` bits. The operand record is no part of the word
(R70), so it is the zero record; a word of more than eight bits is no command (log 2). -/
def decodeTableWord (nbits w : Nat) : Option Instr :=
  if w % 2 ^ nbits < 256 then (decode (Request.ofWord nbits w)).toOption else none

end Sys2Proof
end

