-- ==== Sys2Proof/Machine/State.lean ====
section
/-! DEFINITION. The state of one SMI260 CORE instance (spec/10_state.md): the registers of R20, the records they hold
(R33 to R35), and two fields of the model's own, `port` and `responses` (log 1). -/

namespace Sys2Proof.Machine

/-- dec_phase (R24), coded in 2 bits (R91); the code 3 is never held (U12), so it is no value of the type. -/
inductive Phase where
  /-- No pass loaded since reset. -/
  | idle
  /-- A pass is loaded and dec_off < dec_len. -/
  | scan
  /-- The pass has consumed its whole buffer. -/
  | done
deriving DecidableEq, Repr

/-- The event codes of R181; codes 6 and 7 are never produced (U12). -/
inductive EventCode where
  | accept
  | acceptUnknownMsg
  | framing
  | unknownEndpoint
  | integrity
  | truncated
deriving DecidableEq, Repr

/-- Event (R35): one iteration's outcome and the cursor at its start. -/
structure Event where
  code : EventCode
  offset : Nat
deriving DecidableEq, Repr

/-- DecodedFrame (R34): the record an accepting iteration appends to dec_out. -/
structure DecodedFrame where
  flags : U4
  endpoint : U4
  message_id : U8
  message_valid : Bool
  payload : Bytes
  timestamp : U32
  rssi : U8
  crc : U16
deriving DecidableEq, Repr

/-- Status (R33); code 3 is never returned (U12). -/
inductive Status where
  | ok
  | illegalOp
  | refused
deriving DecidableEq, Repr

/-- Result (R33). -/
inductive Result where
  | none
  | crc16 (v : U16)
  | bytes (s : Bytes)
  | step (event : Event) (frame : Option DecodedFrame)
  | frames (out : List DecodedFrame) (events : List Event)
  | status (phase : Phase) (off len : Nat) (out : List DecodedFrame) (events : List Event)
deriving DecidableEq, Repr

/-- Response (R33): what every operation returns to the host. -/
structure Response where
  status : Status
  result : Result
deriving DecidableEq, Repr

/-- What reaches the block from outside: an operation on its port (R70) or the reset input (R200). -/
inductive HostInput where
  | op (r : Request)
  | reset
deriving DecidableEq, Repr

/-- The state: the registers of R20, and the model's own record of the host's side (log 1). -/
structure State where
  /-- The CRC Engine's shift register (R23). -/
  crc_reg : U16
  /-- The decoder's phase (R24). -/
  dec_phase : Phase
  /-- The decoder's input buffer (R25). -/
  dec_buf : Bytes
  /-- Its length (R26). -/
  dec_len : Nat
  /-- The scan cursor (R27). -/
  dec_off : Nat
  /-- The frames this pass has accepted (R28). -/
  dec_out : List DecodedFrame
  /-- The event records of this pass (R29). -/
  dec_events : List Event
  /-- The model's own: the host's inputs still to come, oldest first (log 1; not state of the block, R37). -/
  port : List HostInput
  /-- The model's own: the responses returned so far, oldest first (log 1; R33). -/
  responses : List Response
deriving DecidableEq, Repr

/-- Why the model stops with a fault. The block itself takes no trap (R180, R185). -/
inductive Fault where
  /-- DEC_STEP or DECODE makes a BufRead where none is defined (R52: only for i < dec_len). No state reachable from
  reset raises it (R52: "no BufRead with i ≥ dec_len is ever performed"). Safe. -/
  | bufReadOutOfRange
deriving DecidableEq, Repr

/-- Why the model refuses. -/
inductive Refusal where
  /-- An operation that has no meaning yet: raised by `exec` alone. Safe. -/
  | notModelled (mnemonic : String)
  /-- A request whose operand record is not the one its code calls for (R70; log 3): raised by `step`. The host cannot
  issue it. Safe. -/
  | operandMismatch
  /-- A Frame whose payload has more than 255 bytes (R32, U4; log 4): raised by `step` and by ENCODE. The host cannot
  present it. Safe. -/
  | payloadTooLong
deriving DecidableEq, Repr

/-- Right after reset (R38, R200). The model's own fields are empty (log 1). -/
def State.reset : State where
  crc_reg := 0xFFFF
  dec_phase := .idle
  dec_buf := []
  dec_len := 0
  dec_off := 0
  dec_out := []
  dec_events := []
  port := []
  responses := []

end Sys2Proof.Machine
end

