-- ==== Sys2Proof/Machine/Ops.lean ====
section
/-! DEFINITION. The primitives of spec/00_scope.md R12 over the state: BufRead, Emit, PushFrame, PushEvent, respond; the
reset input (R200); and what the block answers to a request it has no operation for (R72). The block takes no trap
(60_exceptions.md R185), so there is no exception entry and no return here. -/

namespace Sys2Proof.Machine

/-- The canonical form of the input buffer: dec_len is len(dec_buf) (R26, R39). -/
abbrev Memory.wf (s : State) : Prop := s.dec_len = s.dec_buf.length

/-- BufRead(i) (R12, R52): byte i of the decoder's input buffer, "defined only for i < dec_len". -/
def bufRead (s : State) (i : Nat) : Option U8 := if i < s.dec_len then s.dec_buf[i]? else none

/-- n bytes from index i on, `dec_buf[i, i+n)`, assembled from single-byte BufReads (R58). -/
def bufSlice (s : State) (i : Nat) : Nat → Option Bytes
  | 0 => some []
  | n + 1 => do
    let b ← bufRead s i
    let bs ← bufSlice s (i + 1) n
    some (b :: bs)

/-- Emit(s): append to an operation's output byte stream (R12, R55). -/
def emit (out s : Bytes) : Bytes := out ++ s

/-- PushFrame(f) (R12). -/
def pushFrame (s : State) (f : DecodedFrame) : State := { s with dec_out := s.dec_out ++ [f] }

/-- PushEvent(e) (R12, R182). -/
def pushEvent (s : State) (e : Event) : State := { s with dec_events := s.dec_events ++ [e] }

/-- respond(status, result) (R12, R33): the response reaches the host (log 1). -/
def respond (s : State) (status : Status) (result : Result) : State :=
  { s with responses := s.responses ++ [{ status := status, result := result }] }

/-- The block with its registers at their reset values, the host's side untouched: "It returns no response" (R200). -/
def resetInput (s : State) : State := { State.reset with port := s.port, responses := s.responses }

/-- The host's oldest input is taken off the port (R70: operations are accepted one at a time). -/
def takeInput (s : State) (rest : List HostInput) : State := { s with port := rest }

/-- What becomes of a request the decoder gives no operation for. An illegal code "changes no state and returns
respond(ILLEGAL_OP, none)" (R72). The other two requests are none the host can issue (logs 3 and 4). -/
def rejectRequest (e : DecodeError) (s : State) : Host.Outcome State Fault Refusal :=
  match e with
  | .illegalOp _ => .next (respond s .illegalOp .none)
  | .operandMismatch => .refused .operandMismatch
  | .payloadTooLong => .refused .payloadTooLong

end Sys2Proof.Machine
end

