-- ==== Sys2Proof/Machine/Crc.lean ====
section
/-! DEFINITION. The CRC Engine (spec/40_crc.md): the bit step, the byte step, the function crc16, and the operations
CRC_INIT, CRC_UPDATE, CRC_READ and CRC16. -/

namespace Sys2Proof.Machine

/-- CRC_POLY (R7): the reflected polynomial constant. -/
def CRC_POLY : U16 := 0x8408

/-- CRC_INIT (R7): the initial CRC register value. -/
def CRC_START : U16 := 0xFFFF

/-- CRC_XOROUT (R7): the final exclusive-or value. -/
def CRC_XOROUT : U16 := 0xFFFF

/-- The bit step (R100): the polynomial is XORed after the logical shift. -/
def crcBit (reg : U16) (d : Bool) : U16 := if d ^^ reg.getLsbD 0 then (reg >>> 1) ^^^ CRC_POLY else reg >>> 1

/-- The bits of a byte in CRC order, b[0] first (R9, R101). -/
def bitsOfByte (b : U8) : List Bool := (List.range 8).map b.getLsbD

/-- The byte step (R101): eight bit steps, least-significant bit first. -/
def crcByte (reg : U16) (b : U8) : U16 := (bitsOfByte b).foldl crcBit reg

/-- The byte steps of a sequence, in sequence order (R102, R106). -/
def crcBytes (reg : U16) (s : Bytes) : U16 := s.foldl crcByte reg

/-- The function `crc16` (R102). ENCODE and the decoder call it directly, without crc_reg (R36). -/
def crc16 (s : Bytes) : U16 := crcBytes CRC_START s ^^^ CRC_XOROUT

/-- CRC_INIT (R103). -/
def execCrcInit (s : State) : Host.Outcome State Fault Refusal :=
  .next (respond { s with crc_reg := CRC_START } .ok .none)

/-- CRC_UPDATE b (R104). -/
def execCrcUpdate (b : U8) (s : State) : Host.Outcome State Fault Refusal :=
  .next (respond { s with crc_reg := crcByte s.crc_reg b } .ok .none)

/-- CRC_READ (R105). -/
def execCrcRead (s : State) : Host.Outcome State Fault Refusal :=
  .next (respond s .ok (.crc16 (s.crc_reg ^^^ CRC_XOROUT)))

/-- CRC16 s (R106): crc_reg is left at the un-complemented final register. -/
def execCrc16 (bs : Bytes) (s : State) : Host.Outcome State Fault Refusal :=
  let reg := crcBytes CRC_START bs
  .next (respond { s with crc_reg := reg } .ok (.crc16 (reg ^^^ CRC_XOROUT)))

end Sys2Proof.Machine
end

