-- ==== Sys2Proof/Machine/Flags.lean ====
section
/-! DEFINITION. The control flags of a frame (spec/30_encoding.md R74, R75) and what they say of its length (R77, R78).
The block itself has no condition codes (R30). -/

namespace Sys2Proof.Machine

/-- TS(f) = f[1]: TimeStampField (R74; the position is the spec's choice, log 9). -/
def TS (flags : U4) : Bool := flags.getLsbD 1

/-- RS(f) = f[2]: RSSIField (R74; the position is the spec's choice, log 9). -/
def RS (flags : U4) : Bool := flags.getLsbD 2

/-- CR(f) = f[3]: CRC16Field (R74; "Flags value 0x8 is CRC16Field alone"). -/
def CR (flags : U4) : Bool := flags.getLsbD 3

/-- TS_LEN of R7 where the flag is set: the t of R77. -/
def tsLen (flags : U4) : Nat := if TS flags then 4 else 0

/-- RSSI_LEN of R7 where the flag is set: the r of R77. -/
def rssiLen (flags : U4) : Nat := if RS flags then 1 else 0

/-- CRC_LEN of R7 where the flag is set: the c of R77. -/
def crcLen (flags : U4) : Nat := if CR flags then 2 else 0

/-- HDR_LEN (R7): the SOF, flags/endpoint, message id and length bytes. -/
def HDR_LEN : Nat := 4

/-- The claimed length `F(flags, N) = 4 + N + t + r + c` (R78). -/
def claimedLen (flags : U4) (N : Nat) : Nat := HDR_LEN + N + tsLen flags + rssiLen flags + crcLen flags

/-- Byte 1 of a frame: `b1 = (flags << 4) | (endpoint & 0xF)` (R75, R123). -/
def flagsEndpointByte (flags endpoint : U4) : U8 := (flags.zeroExtend 8 <<< 4) ||| endpoint.zeroExtend 8

/-- `flags = b1[7:4]` (R75). -/
def flagsOf (b1 : U8) : U4 := (b1 >>> 4).truncate 4

/-- `endpoint = b1[3:0]` (R75). -/
def endpointOf (b1 : U8) : U4 := b1.truncate 4

end Sys2Proof.Machine
end

