-- ==== Sys2Proof/Config.lean ====
section
/-! DEFINITION. The block's parameters (spec/00_scope.md R8). They are "fixed when the instance is built" and are
"arguments of the step relation, not state" (R203): every shared operation takes a `Params`, and `Config.params` is the
record of THIS instance. What R8 leaves OPEN is an opaque constant: no proof can see its value. -/

namespace Sys2Proof

/-- P_ENC_TRAILERS (R8, R126): does ENCODE write the timestamp and RSSI trailers? -/
inductive EncTrailers where
  /-- EMIT, the value for this hardware. -/
  | emit
  /-- OMIT, the source system's literal behaviour. -/
  | omitted
deriving DecidableEq, Repr

/-- The endpoints that have a message table: the domain {0x01, 0x02} of P_MSG_TABLE (R8, R83). -/
inductive TabledEndpoint where
  /-- 0x01 device-management. -/
  | devMgmt
  /-- 0x02 radio-link. -/
  | radioLink
deriving DecidableEq, Repr

/-- The parameters of R8. -/
structure Params where
  /-- P_BUF_MAX: the largest input buffer length of one decode pass. -/
  bufMax : Nat
  /-- P_OFF_BITS: the width of the scan cursor register. The cursor itself is an unbounded natural (R8, R10). -/
  offBits : Nat
  /-- P_ENC_TRAILERS. -/
  encTrailers : EncTrailers
  /-- P_MSG_TABLE: is a message id in the table of an endpoint? -/
  msgTable : TabledEndpoint → U8 → Bool

/-- What R8 requires of any instance's parameters: P_BUF_MAX is at least 1; the cursor register holds every value up to
P_BUF_MAX plus the longest frame (266); and radio-link 0x01, the one code the source settles (R87), is in the table. -/
structure Params.Legal (P : Params) : Prop where
  bufMax_pos : 1 ≤ P.bufMax
  cursor_fits : P.bufMax + 266 < 2 ^ P.offBits
  wmbus_request : P.msgTable .radioLink 0x01 = true

/-- P_BUF_MAX less one (R8: OPEN, a natural number ≥ 1; log 5). -/
opaque Config.bufMaxLessOne : Nat

/-- The bits P_OFF_BITS has beyond those R8 requires (R8: OPEN; log 8). -/
opaque Config.spareOffBits : Nat

/-- The part of P_MSG_TABLE that R8 leaves OPEN (log 6). -/
opaque Config.openMsgTable : TabledEndpoint → U8 → Bool

/-- P_BUF_MAX of this instance: OPEN, at least 1 (R8; log 5). -/
def Config.bufMax : Nat := Config.bufMaxLessOne + 1

/-- P_OFF_BITS of this instance: OPEN, wide enough for P_BUF_MAX + 266 (R8, D15; log 8). -/
def Config.offBits : Nat := Nat.log2 (Config.bufMax + 266) + 1 + Config.spareOffBits

/-- P_MSG_TABLE of this instance: OPEN but for radio-link 0x01 (R8, R87; log 6). -/
def Config.msgTable : TabledEndpoint → U8 → Bool
  | .devMgmt, b => Config.openMsgTable .devMgmt b
  | .radioLink, b => b == 0x01 || Config.openMsgTable .radioLink b

/-- The parameters of this instance. P_ENC_TRAILERS = EMIT (R8, R126; D6). -/
def Config.params : Params :=
  { bufMax := Config.bufMax, offBits := Config.offBits, encTrailers := .emit, msgTable := Config.msgTable }

end Sys2Proof
end

