-- ==== Sys2Proof/Machine/Operands.lean ====
section
/-! DEFINITION. Values on the wire and in the interface: byte order (spec/00_scope.md R11; 20_memory.md R54), the
enumerations and message tables (30_encoding.md R83 to R88) and the codes of the enumerated values (R91). -/

namespace Sys2Proof.Machine

/-- SOF: the start-of-frame marker byte (R7, R122). -/
def SOF : U8 := 0xA5

/-- `LE16(v) = [v[7:0], v[15:8]]` (R11). -/
def LE16 (v : U16) : Bytes := [v.truncate 8, (v >>> 8).truncate 8]

/-- `LE32(v) = [v[7:0], v[15:8], v[23:16], v[31:24]]` (R11). -/
def LE32 (v : U32) : Bytes :=
  [v.truncate 8, (v >>> 8).truncate 8, (v >>> 16).truncate 8, (v >>> 24).truncate 8]

/-- `fromLE(s) = Σ s[i]·256^i` (R11). -/
def fromLE : Bytes → Nat
  | [] => 0
  | b :: bs => b.toNat + 256 * fromLE bs

/-- The numeric values of EndpointID (R83). -/
def endpointCode : EndpointID → U4
  | .devMgmt => 0x1
  | .radioLink => 0x2
  | .radioLinkTest => 0x3
  | .hwTest => 0x4

/-- The subsystem an endpoint nibble names; none for 0x0 and 0x5..0xF, which are invalid (R84). -/
def endpointId? (ep : U4) : Option EndpointID :=
  if ep = 0x1 then some .devMgmt
  else if ep = 0x2 then some .radioLink
  else if ep = 0x3 then some .radioLinkTest
  else if ep = 0x4 then some .hwTest
  else none

/-- `ep in {0x1, 0x2, 0x3, 0x4}` (R84, R152). -/
def validEndpoint (ep : U4) : Bool := (endpointId? ep).isSome

/-- The message table of an endpoint; radio-link-test and hardware-test have none (R83, R88). -/
def tableOf : EndpointID → Option TabledEndpoint
  | .devMgmt => some .devMgmt
  | .radioLink => some .radioLink
  | .radioLinkTest => none
  | .hwTest => none

/-- message_valid (R153): the endpoint has a table and the message id is in it. -/
def messageValid (P : Params) (ep : U4) (msg : U8) : Bool :=
  match (endpointId? ep).bind tableOf with
  | some t => P.msgTable t msg
  | none => false

/-- The default P_MSG_TABLE(0x01) (R86, from general knowledge): 33 codes. -/
def defaultDevMgmtIds : Bytes :=
  [0x01, 0x02, 0x03, 0x04, 0x05, 0x06, 0x07, 0x08, 0x09, 0x0A, 0x0B, 0x0C, 0x0D, 0x0E, 0x0F, 0x10, 0x11, 0x12, 0x13,
   0x14, 0x19, 0x1A, 0x1B, 0x1C, 0x1D, 0x1E, 0x21, 0x22, 0x23, 0x24, 0x25, 0x26, 0x27]

/-- The default P_MSG_TABLE(0x02) (R87; all but 0x01 from general knowledge). -/
def defaultRadioLinkIds : Bytes := [0x01, 0x02, 0x03, 0x04, 0x05]

/-- The default P_MSG_TABLE (R86, R87). This instance's table is left OPEN (R8; log 6); the default serves statements
and tests that name their parameters. -/
def defaultMsgTable : TabledEndpoint → U8 → Bool
  | .devMgmt, b => defaultDevMgmtIds.contains b
  | .radioLink, b => defaultRadioLinkIds.contains b

/-- Phase codes IDLE = 0, SCAN = 1, DONE = 2 (R24, R91). -/
def phaseCode : Phase → BitVec 2
  | .idle => 0
  | .scan => 1
  | .done => 2

/-- Status codes OK = 0, ILLEGAL_OP = 1, REFUSED = 2 (R33, R91). -/
def statusCode : Status → BitVec 2
  | .ok => 0
  | .illegalOp => 1
  | .refused => 2

/-- Event codes (R181). -/
def eventCode : EventCode → BitVec 3
  | .accept => 0
  | .acceptUnknownMsg => 1
  | .framing => 2
  | .unknownEndpoint => 3
  | .integrity => 4
  | .truncated => 5

/-- The frame-kept column of R181. -/
def keepsFrame : EventCode → Bool
  | .accept => true
  | .acceptUnknownMsg => true
  | .framing => false
  | .unknownEndpoint => false
  | .integrity => false
  | .truncated => false

end Sys2Proof.Machine
end

