-- ==== Sys2Proof/Machine/Decoder.lean ====
section
/-! DEFINITION. The Frame Decoder and Stream Synchronizer (spec/42_decoder.md): the iteration `scan_iter` (R145) and the
operations DEC_START, DEC_STEP, DECODE and DEC_STATUS. A `none` of a scanning function means a BufRead where none is
defined (R52; log 10). -/

namespace Sys2Proof.Machine

/-- What an iteration returns (R145): event code, optional frame, next cursor. -/
structure IterResult where
  code : EventCode
  frame : Option DecodedFrame
  next : Nat
deriving DecidableEq, Repr

/-- A dropped candidate: no frame (R181). -/
def dropped (code : EventCode) (next : Nat) : IterResult := { code := code, frame := none, next := next }

/-- The four timestamp bytes at p as a u32 where TimeStampField is set, else 0 (R76, R156, R157). -/
def readTimestamp (s : State) (flags : U4) (p : Nat) : Option U32 :=
  if TS flags then (bufSlice s p 4).map fun bs => BitVec.ofNat 32 (fromLE bs) else some 0

/-- The RSSI byte at p where RSSIField is set, else 0 (R76, R156, R157). -/
def readRssi (s : State) (flags : U4) (p : Nat) : Option U8 := if RS flags then bufRead s p else some 0

/-- The received CRC at p, `BufRead(p) | (BufRead(p+1) << 8)` (R76, R145). -/
def readCrc (s : State) (p : Nat) : Option U16 := do
  let lo ← bufRead s p
  let hi ← bufRead s (p + 1)
  some (lo.zeroExtend 16 ||| (hi.zeroExtend 16 <<< 8))

/-- The end of an accepting iteration (R153, R157, R158); `len` is the accumulated `length` of R145. -/
def acceptFrame (P : Params) (o len : Nat) (flags ep : U4) (msg : U8) (payload : Bytes) (ts : U32) (rssi : U8)
    (crc : U16) : IterResult :=
  let valid := messageValid P ep msg
  { code := if valid then .accept else .acceptUnknownMsg
    frame := some
      { flags := flags, endpoint := ep, message_id := msg, message_valid := valid, payload := payload,
        timestamp := ts, rssi := rssi, crc := crc }
    next := o + 4 + len }

/-- Fields, CRC check and acceptance of a candidate that lies whole in the buffer (R145 from `length <- N` on; R155 to
R158, R163). `N` is the payload length byte's value and `F` the claimed length. -/
def scanBody (P : Params) (s : State) (o : Nat) (flags ep : U4) (msg : U8) (N F : Nat) : Option IterResult := do
  let payload ← bufSlice s (o + 4) N
  let ts ← readTimestamp s flags (o + 4 + N)
  let len := N + tsLen flags
  let rssi ← readRssi s flags (o + 4 + len)
  let len := len + rssiLen flags
  if CR flags then do
    let covered ← bufSlice s (o + 1) (3 + len)
    let rx ← readCrc s (o + 4 + len)
    if crc16 covered ≠ rx then some (dropped .integrity (o + F))
    else some (acceptFrame P o (len + 2) flags ep msg payload ts rssi rx)
  else some (acceptFrame P o len flags ep msg payload ts rssi 0)

/-- Endpoint, header and length checks of a candidate whose flags/endpoint byte is `b1` (R145; R152, R154). -/
def scanHeader (P : Params) (s : State) (o : Nat) (b1 : U8) : Option IterResult :=
  let flags := flagsOf b1
  let ep := endpointOf b1
  if validEndpoint ep = false then some (dropped .unknownEndpoint (o + 1))
  else if s.dec_len < o + 4 then some (dropped .truncated (o + 1))
  else do
    let msg ← bufRead s (o + 2)
    let n ← bufRead s (o + 3)
    let F := claimedLen flags n.toNat
    if s.dec_len < o + F then some (dropped .truncated (o + 1))
    else scanBody P s o flags ep msg n.toNat F

/-- The iteration function `scan_iter(o)` (R145). The checks come in the order of R184. -/
def scanIter (P : Params) (s : State) (o : Nat) : Option IterResult := do
  let b0 ← bufRead s o
  if b0 ≠ SOF then some (dropped .framing (o + 1))
  else if s.dec_len ≤ o + 1 then some (dropped .truncated (o + 1))
  else do
    let b1 ← bufRead s (o + 1)
    scanHeader P s o b1

/-- The event of an iteration that began at cursor `o` (R35, R182). -/
def iterEvent (r : IterResult) (o : Nat) : Event := { code := r.code, offset := o }

/-- PushFrame where there is a frame (R146). -/
def pushFrame? (s : State) : Option DecodedFrame → State
  | some f => pushFrame s f
  | none => s

/-- The cursor update and the end of the pass (R146, R148). -/
def moveCursor (s : State) (o' : Nat) : State :=
  { s with dec_off := o', dec_phase := if o' = s.dec_len then .done else s.dec_phase }

/-- DEC_STEP applies an iteration's result (R146). -/
def applyIter (s : State) (r : IterResult) : State :=
  moveCursor (pushFrame? (pushEvent s (iterEvent r s.dec_off)) r.frame) r.next

/-- One iteration of a pass, without its response. -/
def iterate (P : Params) (s : State) : Option State := (scanIter P s s.dec_off).map (applyIter s)

/-- Loading a pass (R141): the buffer is copied (R53), everything else of the decoder starts afresh. -/
def loadPass (buf : Bytes) (s : State) : State :=
  { s with
    dec_buf := buf
    dec_len := buf.length
    dec_off := 0
    dec_out := []
    dec_events := []
    dec_phase := if buf.length = 0 then .done else .scan }

/-- DEC_START buf under parameters P (R141). -/
def decStartOp (P : Params) (buf : Bytes) (s : State) : Host.Outcome State Fault Refusal :=
  if P.bufMax < buf.length then .next (respond s .refused .none)
  else .next (respond (loadPass buf s) .ok .none)

/-- DEC_STEP under parameters P (R146, R147). -/
def decStepOp (P : Params) (s : State) : Host.Outcome State Fault Refusal :=
  if s.dec_phase = .scan then
    match scanIter P s s.dec_off with
    | some r => .next (respond (applyIter s r) .ok (.step (iterEvent r s.dec_off) r.frame))
    | none => .fault .bufReadOutOfRange
  else .next (respond s .ok .none)

/-- `while dec_phase == SCAN: perform DEC_STEP, discarding its response` (R143), for at most the given number of
iterations. R144 bounds a pass by its buffer's length (log 13). -/
def decLoop (P : Params) : Nat → State → Option State
  | 0, s => some s
  | n + 1, s => if s.dec_phase = .scan then (iterate P s).bind (decLoop P n) else some s

/-- DECODE buf under parameters P (R143): one atomic operation. -/
def decodeOp (P : Params) (buf : Bytes) (s : State) : Host.Outcome State Fault Refusal :=
  if P.bufMax < buf.length then .next (respond s .refused .none)
  else
    match decLoop P buf.length (loadPass buf s) with
    | some t => .next (respond t .ok (.frames t.dec_out t.dec_events))
    | none => .fault .bufReadOutOfRange

/-- DEC_START (R141) on this instance. -/
def execDecStart (buf : Bytes) (s : State) : Host.Outcome State Fault Refusal := decStartOp Config.params buf s

/-- DEC_STEP (R146) on this instance. -/
def execDecStep (s : State) : Host.Outcome State Fault Refusal := decStepOp Config.params s

/-- DECODE (R143) on this instance. -/
def execDecode (buf : Bytes) (s : State) : Host.Outcome State Fault Refusal := decodeOp Config.params buf s

/-- DEC_STATUS (R149): the decoder's registers, read-only (R31). -/
def execDecStatus (s : State) : Host.Outcome State Fault Refusal :=
  .next (respond s .ok (.status s.dec_phase s.dec_off s.dec_len s.dec_out s.dec_events))

end Sys2Proof.Machine
end

