-- ==== Sys2Proof/Machine/Encoder.lean ====
section
/-! DEFINITION. The Frame Encoder (spec/41_encoder.md): ENCODE. It holds no state and writes none (R120). -/

namespace Sys2Proof.Machine

/-- The four header bytes (R122, R123, R125). -/
def encodeHeader (f : Frame) : Bytes :=
  [SOF, flagsEndpointByte f.flags f.endpoint, f.message_id, BitVec.ofNat 8 f.payload.length]

/-- The timestamp and RSSI trailers (R126): written under EMIT where their flags are set, never under OMIT. -/
def encodeTrailers (P : Params) (f : Frame) : Bytes :=
  match P.encTrailers with
  | .emit => emit (if TS f.flags then LE32 f.timestamp else []) (if RS f.flags then [f.rssi] else [])
  | .omitted => []

/-- The wire bytes of f (R121): the CRC, where CRC16Field is set, covers everything emitted so far but the SOF (R127). -/
def encodeFrame (P : Params) (f : Frame) : Bytes :=
  let out := emit (emit (encodeHeader f) f.payload) (encodeTrailers P f)
  if CR f.flags then emit out (LE16 (crc16 (out.drop 1))) else out

/-- ENCODE f under parameters P (R121): "always OK"; no register is read or written (R120). A payload of more than 255
bytes is no Frame value and is rejected before any byte is emitted (R32, U4; log 4). -/
def encodeOp (P : Params) (f : Frame) (s : State) : Host.Outcome State Fault Refusal :=
  if f.wf then .next (respond s .ok (.bytes (encodeFrame P f))) else .refused .payloadTooLong

/-- ENCODE (R121) on this instance. -/
def execEncode (f : Frame) (s : State) : Host.Outcome State Fault Refusal := encodeOp Config.params f s

end Sys2Proof.Machine
end

