-- ==== Sys2Proof/Machine/Dispatch.lean ====
section
/-! DEFINITION. One arm per operation of spec/30_encoding.md R71. -/

namespace Sys2Proof.Machine

def exec (i : Instr) (s : State) : Host.Outcome State Fault Refusal :=
  match i with
  | .crcInit => Sys2Proof.Machine.execCrcInit s
  | .crcUpdate b => Sys2Proof.Machine.execCrcUpdate b s
  | .crcRead => Sys2Proof.Machine.execCrcRead s
  | .crc16 bs => Sys2Proof.Machine.execCrc16 bs s
  | .encode f => Sys2Proof.Machine.execEncode f s
  | .decStart buf => Sys2Proof.Machine.execDecStart buf s
  | .decStep => Sys2Proof.Machine.execDecStep s
  | .decode buf => Sys2Proof.Machine.execDecode buf s
  | .decStatus => Sys2Proof.Machine.execDecStatus s

end Sys2Proof.Machine
end

