-- ==== Sys2Proof/Machine/Step.lean ====
section
/-! DEFINITION. One step: the block takes the host's oldest input and finishes it (spec/20_memory.md R60, R63;
30_encoding.md R70). The block has no program counter and fetches nothing (10_state.md R22): the port is where the next
operation comes from (log 1). -/

namespace Sys2Proof.Machine

/-- With no input waiting, nothing happens (log 12). The reset input writes the registers (R200). An operation is decoded
and executed; a request that is no operation is answered as `rejectRequest` says (R72). -/
def step (s : State) : Host.Outcome State Fault Refusal :=
  match s.port with
  | [] => .next s
  | .reset :: rest => .next (resetInput (takeInput s rest))
  | .op r :: rest =>
    match decode r with
    | .ok i => exec i (takeInput s rest)
    | .error e => rejectRequest e (takeInput s rest)

/-- The state with the operation of command word w, its operand record zero, as the host's next input (log 2). -/
def State.withFetchWord (s : State) (nbits w : Nat) : State :=
  { s with port := .op (Request.ofWord nbits w) :: s.port }

end Sys2Proof.Machine
end

