-- ==== Sys2Proof/Safety.lean ====
section
/-! DEFINITION. The terms claims are stated in: the invariants of spec/10_state.md R39 and of the lists R28 and R29, what
an accepted frame is (R34, R157), where a pass stands, and running several operations in order. Nothing of the machine
calls these. -/

namespace Sys2Proof.Machine

/-- R39, bullet by bullet. -/
structure Inv (P : Params) (s : State) : Prop where
  len_eq : s.dec_len = s.dec_buf.length
  len_le : s.dec_len ≤ P.bufMax
  off_le : s.dec_off ≤ s.dec_len
  scan_lt : s.dec_phase = .scan → s.dec_off < s.dec_len
  done_eq : s.dec_phase = .done → s.dec_off = s.dec_len
  idle_empty : s.dec_phase = .idle → s.dec_buf = [] ∧ s.dec_off = 0 ∧ s.dec_out = [] ∧ s.dec_events = []
  out_le : s.dec_out.length ≤ s.dec_events.length
  out_endpoint : ∀ d ∈ s.dec_out, d.endpoint = 0x1 ∨ d.endpoint = 0x2 ∨ d.endpoint = 0x3 ∨ d.endpoint = 0x4

/-- The event list of a pass (R28, R29, R181): one event per cursor position the pass has stood at, in rising order, all
behind the cursor; one frame for each event that keeps one, in the same order, message_valid exactly for ACCEPT. -/
structure PassLog (s : State) : Prop where
  rising : s.dec_events.Pairwise fun a b => a.offset < b.offset
  behind : ∀ e ∈ s.dec_events, e.offset < s.dec_off
  frames : s.dec_out.map (fun d => d.message_valid) =
    (s.dec_events.filter fun e => keepsFrame e.code).map fun e => e.code == .accept

/-- The value column of R34 for a frame in dec_out (R157): a payload a length byte can announce, a valid endpoint, and 0
in every absent field. -/
structure LegalFrame (P : Params) (d : DecodedFrame) : Prop where
  payload_le : d.payload.length ≤ 255
  endpoint_valid : validEndpoint d.endpoint = true
  timestamp_absent : TS d.flags = false → d.timestamp = 0
  rssi_absent : RS d.flags = false → d.rssi = 0
  crc_absent : CR d.flags = false → d.crc = 0
  valid_eq : d.message_valid = messageValid P d.endpoint d.message_id

/-- The fields of a decoded frame that a Frame has (R32, R34). -/
def frameOf (d : DecodedFrame) : Frame :=
  { flags := d.flags, endpoint := d.endpoint, message_id := d.message_id, payload := d.payload,
    timestamp := d.timestamp, rssi := d.rssi }

/-- The bytes R78 says the CRC of f covers when its trailers are on the wire: from the flags/endpoint byte to the last
byte before the CRC. -/
def coveredBytes (f : Frame) : Bytes :=
  [flagsEndpointByte f.flags f.endpoint, f.message_id, BitVec.ofNat 8 f.payload.length] ++ f.payload
    ++ (if TS f.flags then LE32 f.timestamp else []) ++ (if RS f.flags then [f.rssi] else [])

/-- The record R157 and R167 give for the encoding of f. -/
def decodedOf (P : Params) (f : Frame) : DecodedFrame :=
  { flags := f.flags
    endpoint := f.endpoint
    message_id := f.message_id
    message_valid := messageValid P f.endpoint f.message_id
    payload := f.payload
    timestamp := if TS f.flags then f.timestamp else 0
    rssi := if RS f.flags then f.rssi else 0
    crc := if CR f.flags then crc16 (coveredBytes f) else 0 }

/-- ACCEPT or ACCEPT_UNKNOWN_MSG, by message_valid (R153). -/
def acceptCode (valid : Bool) : EventCode := if valid then .accept else .acceptUnknownMsg

/-- A Frame the decoder keeps when its encoding is whole: a value of R32 with a valid endpoint (R167). -/
def Decodable (f : Frame) : Prop := f.wf = true ∧ validEndpoint f.endpoint = true

/-- A pass stands at the bytes `rest` of its buffer, with `pre` behind the cursor (R24 to R27, R145). -/
structure StandsAt (s : State) (pre rest : Bytes) : Prop where
  scanning : s.dec_phase = .scan
  buffer : s.dec_buf = pre ++ rest
  len_eq : s.dec_len = s.dec_buf.length
  cursor : s.dec_off = pre.length

/-- The state after an iteration (R146, R148): its event recorded at the old cursor, its frame kept if there is one, the
cursor moved by `advance`, the phase DONE exactly at the end of the buffer, and the response given. -/
def afterIteration (s : State) (code : EventCode) (frame : Option DecodedFrame) (advance : Nat) : State :=
  { s with
    dec_events := s.dec_events ++ [{ code := code, offset := s.dec_off }]
    dec_out := s.dec_out ++ frame.toList
    dec_off := s.dec_off + advance
    dec_phase := if s.dec_off + advance = s.dec_len then .done else .scan
    responses := s.responses ++
      [{ status := .ok, result := .step { code := code, offset := s.dec_off } frame }] }

/-- The bytes the trailers of a frame take, by the bits of its flags/endpoint byte (R75, R77). -/
def trailerBytes (b1 : U8) : Nat :=
  (if b1.getLsbD 5 then 4 else 0) + (if b1.getLsbD 6 then 1 else 0) + (if b1.getLsbD 7 then 2 else 0)

/-- The endpoint nibble of a flags/endpoint byte is one of 0x1..0x4 (R75, R84). -/
def endpointOk (b1 : U8) : Prop := 1 ≤ b1.toNat % 16 ∧ b1.toNat % 16 ≤ 4

/-- Several operations executed in order; the first stop ends the run. -/
def runOps : List Instr → State → Host.Outcome State Fault Refusal
  | [], s => .next s
  | i :: is, s =>
    match exec i s with
    | .next t => runOps is t
    | .fault r => .fault r
    | .refused r => .refused r

/-- A host input the host can present: the reset input, an operation with its operand record, or an illegal code (R70,
R72). -/
def Presentable : HostInput → Prop
  | .reset => True
  | .op r => ∀ e, decode r = .error e → e = .illegalOp r.op

/-- An event with ACCEPT_UNKNOWN_MSG read as ACCEPT: what is left of an event when message ids are not looked at (R153). -/
def blurEvent (e : Event) : Event :=
  { e with code := if e.code = .acceptUnknownMsg then .accept else e.code }

/-- A decoded frame without its message_valid bit (R153). -/
def eraseValid (d : DecodedFrame) : DecodedFrame := { d with message_valid := false }

end Sys2Proof.Machine
end

