-- ==== Sys2Proof/Certificates/Slice0/Obligations.lean ====
section
/-! DEFINITION. The statements for the provers. A bound on P_BUF_MAX of this instance (an OPEN value, log 5) that a law
needs longer buffers for is avoided by quantifying over the parameters P: exec is the case P = Config.params. -/

open Sys2Proof Sys2Proof.Machine

/-! ## Reset, the step, encodings -/

/-- R38: the reset value of every register. -/
def Obligations.ResetRegisterValues : Prop :=
  State.reset.crc_reg = 0xFFFF ∧ State.reset.dec_phase = .idle ∧ State.reset.dec_buf = [] ∧ State.reset.dec_len = 0 ∧
  State.reset.dec_off = 0 ∧ State.reset.dec_out = [] ∧ State.reset.dec_events = []

/-- R200: from any state, the reset input writes every register to the value of R38 and returns no response. That the
host's later inputs and the responses it has stay is the model's choice (log 1). -/
def Obligations.ResetInputRestoresRegisters : Prop :=
  ∀ (s : State) (rest : List HostInput), s.port = .reset :: rest →
    step s = .next
      { crc_reg := 0xFFFF, dec_phase := .idle, dec_buf := [], dec_len := 0, dec_off := 0, dec_out := [],
        dec_events := [], port := rest, responses := s.responses }

/-- R201: what the operations named there answer right after reset. -/
def Obligations.OperationsRightAfterReset : Prop :=
  exec .crcRead State.reset =
    .next { State.reset with responses := [{ status := .ok, result := .crc16 (Sys2Proof.Machine.crc16 []) }] } ∧
  Sys2Proof.Machine.crc16 [] = 0x0000 ∧
  exec .decStep State.reset = .next { State.reset with responses := [{ status := .ok, result := .none }] } ∧
  exec .decStatus State.reset =
    .next { State.reset with responses := [{ status := .ok, result := .status .idle 0 0 [] [] }] } ∧
  ∀ (f : Frame) (s t u : State), exec (.encode f) State.reset = .next t → exec (.encode f) s = .next u →
    ∃ r, t.responses = [r] ∧ u.responses = s.responses ++ [r]

/-- The host's next request, when it decodes to i, is executed as i, and nothing else happens in the step but that the
request leaves the port (R70; the port is the model's, log 1). -/
def Obligations.StepRunsDecodedOperation : Prop :=
  ∀ (s : State) (r : Request) (rest : List HostInput) (i : Instr), s.port = .op r :: rest → decode r = .ok i →
    step s = exec i { s with port := rest }

/-- R72: an illegal code changes no register and is answered with ILLEGAL_OP, whatever operand record comes with it. -/
def Obligations.IllegalCodeAnswered : Prop :=
  ∀ (s : State) (op : U8) (x : Operand) (rest : List HostInput),
    (op.toNat = 0x00 ∨ (0x05 ≤ op.toNat ∧ op.toNat ≤ 0x0F) ∨ (0x11 ≤ op.toNat ∧ op.toNat ≤ 0x1F) ∨ 0x24 ≤ op.toNat) →
    s.port = .op { op := op, operand := x } :: rest →
    step s = .next
      { s with port := rest, responses := s.responses ++ [{ status := .illegalOp, result := .none }] }

/-- With no input waiting the block stands still: the model's choice (log 12). -/
def Obligations.IdlePortChangesNothing : Prop := ∀ s : State, s.port = [] → step s = .next s

/-- R71, R73: decoding and encoding agree in both directions: exactly the well-formed operations have a request, each
has one, and the decoder reads it back with every operand. -/
def Obligations.DecodeInvertsEncode : Prop :=
  ∀ (r : Request) (i : Instr), decode r = .ok i ↔ (i.WellFormed = true ∧ r = encode i)

/-- The nine codes of R71, written out, decode to their operations. A word alone is read with the zero operand record of
its code (the model's choice, log 2); CRC_UPDATE 0x82 and ENCODE of V-ENC-1's frame carry an operand record of their own.
0x05 is no code of R71. -/
def Obligations.OpcodeTableWordsDecode : Prop :=
  decodeTableWord 8 0x01 = some .crcInit ∧ decodeTableWord 8 0x02 = some (.crcUpdate 0) ∧
  decodeTableWord 8 0x03 = some .crcRead ∧ decodeTableWord 8 0x04 = some (.crc16 []) ∧
  decodeTableWord 8 0x10 =
    some (.encode { flags := 0, endpoint := 0, message_id := 0, payload := [], timestamp := 0, rssi := 0 }) ∧
  decodeTableWord 8 0x20 = some (.decStart []) ∧ decodeTableWord 8 0x21 = some .decStep ∧
  decodeTableWord 8 0x22 = some (.decode []) ∧ decodeTableWord 8 0x23 = some .decStatus ∧
  decode { op := 0x02, operand := .u8 0x82 } = .ok (.crcUpdate 0x82) ∧
  (let f : Frame := { flags := 0x8, endpoint := 0x2, message_id := 0x01, payload := [], timestamp := 0, rssi := 0 }
   decode { op := 0x10, operand := .frame f } = .ok (.encode f)) ∧
  decodeTableWord 8 0x05 = none

/-- R91 and the code column of R181: the codes of the enumerated values. -/
def Obligations.EnumerationCodes : Prop :=
  (phaseCode .idle = 0 ∧ phaseCode .scan = 1 ∧ phaseCode .done = 2) ∧
  (statusCode .ok = 0 ∧ statusCode .illegalOp = 1 ∧ statusCode .refused = 2) ∧
  (eventCode .accept = 0 ∧ eventCode .acceptUnknownMsg = 1 ∧ eventCode .framing = 2 ∧ eventCode .unknownEndpoint = 3 ∧
    eventCode .integrity = 4 ∧ eventCode .truncated = 5)

/-- R83, R84, R88: the endpoint enumeration is closed, 0x1 to 0x4 are its values and the only valid nibbles, and the two
endpoints without a message table have no valid message id. -/
def Obligations.EndpointEnumeration : Prop :=
  (endpointCode .devMgmt = 0x1 ∧ endpointCode .radioLink = 0x2 ∧ endpointCode .radioLinkTest = 0x3 ∧
    endpointCode .hwTest = 0x4) ∧
  (∀ (ep : U4) (e : EndpointID), endpointId? ep = some e ↔ ep = endpointCode e) ∧
  (∀ ep : U4, validEndpoint ep = true ↔ 1 ≤ ep.toNat ∧ ep.toNat ≤ 4) ∧
  ∀ (P : Params) (msg : U8), messageValid P 0x3 msg = false ∧ messageValid P 0x4 msg = false

/-- R8: the parameters of this instance satisfy what R8 says of any instance's, and P_ENC_TRAILERS is EMIT. -/
def Obligations.ParametersAreLegal : Prop := Config.params.Legal ∧ Config.params.encTrailers = .emit

/-! ## The CRC Engine -/

/-- R103. -/
def Obligations.CrcInitWritesStartValue : Prop :=
  ∀ s : State, exec .crcInit s =
    .next { s with crc_reg := 0xFFFF, responses := s.responses ++ [{ status := .ok, result := .none }] }

/-- R104 with R100 and R101: the new register is the result of eight bit steps, b[0] first, each of them a logical shift
right followed by the polynomial where data bit and register bit 0 differ. -/
def Obligations.CrcUpdateShiftsOneByte : Prop :=
  ∀ (b : U8) (s : State) (r : Nat → U16),
    r 0 = s.crc_reg →
    (∀ i, i < 8 → r (i + 1) =
      if b.getLsbD i ≠ (r i).getLsbD 0 then (r i >>> 1) ^^^ 0x8408 else r i >>> 1) →
    exec (.crcUpdate b) s =
      .next { s with crc_reg := r 8, responses := s.responses ++ [{ status := .ok, result := .none }] }

/-- R105. -/
def Obligations.CrcReadReturnsComplement : Prop :=
  ∀ s : State, exec .crcRead s =
    .next { s with responses := s.responses ++ [{ status := .ok, result := .crc16 (s.crc_reg ^^^ 0xFFFF) }] }

/-- R106: CRC16 leaves the un-complemented final register, returns its complement, which is crc16(s) of R102, and does
not depend on the register it found. -/
def Obligations.Crc16ReturnsCrcOfSequence : Prop :=
  ∀ (bs : Bytes) (s : State), exec (.crc16 bs) s =
    .next
      { s with
        crc_reg := Sys2Proof.Machine.crc16 bs ^^^ 0xFFFF
        responses := s.responses ++ [{ status := .ok, result := .crc16 (Sys2Proof.Machine.crc16 bs) }] }

/-- R90, R106: CRC16 s is CRC_INIT, then CRC_UPDATE of each byte, then CRC_READ: the same registers, the same last
answer. -/
def Obligations.Crc16IsItsExpansion : Prop :=
  ∀ (bs : Bytes) (s : State), ∃ t u : State,
    exec (.crc16 bs) s = .next t ∧
    runOps (.crcInit :: bs.map .crcUpdate ++ [.crcRead]) s = .next u ∧
    { u with responses := t.responses } = t ∧ u.responses.getLast? = t.responses.getLast?

/-- R107: for each byte, the byte step is a bijection of the register. -/
def Obligations.CrcByteStepIsBijective : Prop := ∀ b : U8, Function.Bijective fun r : U16 => crcByte r b

/-- The byte step as a table step: the high register byte moved down, XORed with the byte step of the register's low
byte XOR the data byte from zero. Follows from R100 and R101; not a rule of the spec. -/
def Obligations.CrcByteStepIsTableStep : Prop :=
  ∀ (r : U16) (b : U8), crcByte r b = (r >>> 8) ^^^ crcByte 0 (r.truncate 8 ^^^ b)

/-- R108: after any data and its own CRC, little-endian, the register holds 0xF0B8 and crc16 is 0x0F47. -/
def Obligations.CrcResidueIsConstant : Prop :=
  ∀ d : Bytes,
    crcBytes 0xFFFF (d ++ LE16 (Sys2Proof.Machine.crc16 d)) = 0xF0B8 ∧
    Sys2Proof.Machine.crc16 (d ++ LE16 (Sys2Proof.Machine.crc16 d)) = 0x0F47

/-- R110: two different sequences of one length whose bits, least-significant first in each byte, differ only inside a
window of 16 bits have different CRCs. -/
def Obligations.CrcDetectsShortBursts : Prop :=
  ∀ (x y : Bytes) (k : Nat), x.length = y.length → x ≠ y →
    (∀ i, (x.flatMap bitsOfByte)[i]? ≠ (y.flatMap bitsOfByte)[i]? → k ≤ i ∧ i < k + 16) →
    Sys2Proof.Machine.crc16 x ≠ Sys2Proof.Machine.crc16 y

/-! ## The Frame Encoder -/

/-- R121 to R127: ENCODE writes no register, answers OK and returns the wire bytes: SOF, flags/endpoint byte, message id,
length, payload, the trailers whose flags are set, and the CRC of everything after the SOF where CRC16Field is set.
Under OMIT the two trailers are left out and the flag bits stay. -/
def Obligations.EncodeReturnsWireBytes : Prop :=
  ∀ (f : Frame) (s : State) (header trailers : Bytes), f.payload.length ≤ 255 →
    header = [BitVec.ofNat 8 (f.flags.toNat * 16 + f.endpoint.toNat), f.message_id, BitVec.ofNat 8 f.payload.length] →
    trailers = (if f.flags.getLsbD 1 then LE32 f.timestamp else []) ++ (if f.flags.getLsbD 2 then [f.rssi] else []) →
    (∀ covered : Bytes, covered = header ++ f.payload ++ trailers →
      exec (.encode f) s = .next
        { s with
          responses := s.responses ++
            [{ status := .ok
               result := .bytes (0xA5 :: (covered ++
                if f.flags.getLsbD 3 then LE16 (Sys2Proof.Machine.crc16 covered) else [])) }] }) ∧
    (∀ (P : Params) (covered : Bytes), P.encTrailers = .omitted → covered = header ++ f.payload →
      encodeOp P f s = .next
        { s with
          responses := s.responses ++
            [{ status := .ok
               result := .bytes (0xA5 :: (covered ++
                if f.flags.getLsbD 3 then LE16 (Sys2Proof.Machine.crc16 covered) else [])) }] })

/-- R128: the length of ENCODE's output, and its range. -/
def Obligations.EncodedLength : Prop :=
  ∀ (P : Params) (f : Frame), f.payload.length ≤ 255 →
    (encodeFrame P f).length = 4 + f.payload.length
      + (if f.flags.getLsbD 1 = true ∧ P.encTrailers = .emit then 4 else 0)
      + (if f.flags.getLsbD 2 = true ∧ P.encTrailers = .emit then 1 else 0)
      + (if f.flags.getLsbD 3 = true then 2 else 0) ∧
    (P.encTrailers = .emit → (encodeFrame P f).length = claimedLen f.flags f.payload.length) ∧
    4 ≤ (encodeFrame P f).length ∧ (encodeFrame P f).length ≤ 266

/-- U4: a payload of more than 255 bytes is rejected before ENCODE. That the model rejects it by a refusal is its choice
(log 4). -/
def Obligations.OverlongPayloadIsRefused : Prop :=
  ∀ (f : Frame) (s : State), 255 < f.payload.length →
    exec (.encode f) s = .refused .payloadTooLong ∧
    decode { op := 0x10, operand := .frame f } = .error .payloadTooLong

/-- R79: trailer bytes for each flags nibble 0 to F. -/
def Obligations.TrailerLengthTable : Prop :=
  ((List.range 16).map fun n =>
    tsLen (BitVec.ofNat 4 n) + rssiLen (BitVec.ofNat 4 n) + crcLen (BitVec.ofNat 4 n)) =
    [0, 0, 4, 4, 1, 1, 5, 5, 2, 2, 6, 6, 3, 3, 7, 7]

/-! ## The decoder, operation by operation -/

/-- R141: a buffer within P_BUF_MAX is loaded and every decoder register starts afresh, in every phase. -/
def Obligations.DecStartLoadsPass : Prop :=
  ∀ (buf : Bytes) (s : State), buf.length ≤ Config.params.bufMax →
    exec (.decStart buf) s = .next
      { s with
        dec_buf := buf, dec_len := buf.length, dec_off := 0, dec_out := [], dec_events := [],
        dec_phase := if buf = [] then .done else .scan,
        responses := s.responses ++ [{ status := .ok, result := .none }] }

/-- R141, R143: a longer buffer is REFUSED with no register changed. -/
def Obligations.OverlongBufferIsRefused : Prop :=
  ∀ (buf : Bytes) (s : State), Config.params.bufMax < buf.length →
    exec (.decStart buf) s =
      .next { s with responses := s.responses ++ [{ status := .refused, result := .none }] } ∧
    exec (.decode buf) s =
      .next { s with responses := s.responses ++ [{ status := .refused, result := .none }] }

/-- R147: DEC_STEP outside SCAN changes no register and answers OK, none. -/
def Obligations.DecStepOutsidePassIsNoOp : Prop :=
  ∀ s : State, s.dec_phase ≠ .scan →
    exec .decStep s = .next { s with responses := s.responses ++ [{ status := .ok, result := .none }] }

/-- R160: a byte that is not the SOF yields FRAMING and an advance by 1, and a run of k such bytes yields k of them. -/
def Obligations.FramingAdvancesByOne : Prop :=
  (∀ (s : State) (pre rest : Bytes) (b0 : U8), StandsAt s pre (b0 :: rest) → b0 ≠ 0xA5 →
    exec .decStep s = .next (afterIteration s .framing none 1)) ∧
  (∀ (s : State) (pre noise rest : Bytes), StandsAt s pre (noise ++ rest) → (∀ b ∈ noise, b ≠ 0xA5) →
    ∃ t : State, runOps (List.replicate noise.length .decStep) s = .next t ∧
      t.dec_events = s.dec_events ++
        (List.range noise.length).map (fun k => { code := .framing, offset := s.dec_off + k }) ∧
      t.dec_out = s.dec_out ∧ t.dec_off = s.dec_off + noise.length ∧ t.dec_buf = s.dec_buf ∧ t.crc_reg = s.crc_reg)

/-- R151, R154, R162: the SOF is the last byte; or, the endpoint being valid, the header or the claimed frame is not
whole: TRUNCATED, and an advance by 1. -/
def Obligations.TruncatedAdvancesByOne : Prop :=
  (∀ (s : State) (pre : Bytes), StandsAt s pre [0xA5] →
    exec .decStep s = .next (afterIteration s .truncated none 1)) ∧
  (∀ (s : State) (pre rest : Bytes) (b1 : U8), StandsAt s pre (0xA5 :: b1 :: rest) → endpointOk b1 → rest.length < 2 →
    exec .decStep s = .next (afterIteration s .truncated none 1)) ∧
  (∀ (s : State) (pre rest : Bytes) (b1 msg n : U8), StandsAt s pre (0xA5 :: b1 :: msg :: n :: rest) → endpointOk b1 →
    rest.length < n.toNat + trailerBytes b1 →
    exec .decStep s = .next (afterIteration s .truncated none 1))

/-- R152, R161: an endpoint nibble outside 0x1..0x4 drops the candidate, whatever follows, with UNKNOWN_ENDPOINT and an
advance by 1. -/
def Obligations.UnknownEndpointAdvancesByOne : Prop :=
  ∀ (s : State) (pre rest : Bytes) (b1 : U8), StandsAt s pre (0xA5 :: b1 :: rest) → ¬ endpointOk b1 →
    exec .decStep s = .next (afterIteration s .unknownEndpoint none 1)

/-- R155, R163: a whole candidate with CRC16Field set whose last two bytes are not the little-endian crc16 of the bytes
between the SOF and them is dropped with INTEGRITY, and the cursor passes the claimed length. -/
def Obligations.IntegritySkipsClaimedLength : Prop :=
  ∀ (s : State) (pre body rest : Bytes) (b1 msg n lo hi : U8),
    StandsAt s pre (0xA5 :: b1 :: msg :: n :: (body ++ [lo, hi] ++ rest)) → endpointOk b1 → b1.getLsbD 7 = true →
    body.length + 2 = n.toNat + trailerBytes b1 → [lo, hi] ≠ LE16 (Sys2Proof.Machine.crc16 ([b1, msg, n] ++ body)) →
    exec .decStep s = .next (afterIteration s .integrity none (4 + n.toNat + trailerBytes b1))

/-- R153, R157, R158: a whole candidate with a valid endpoint, and a matching CRC where CRC16Field is set, is kept: the
record of R157, ACCEPT or ACCEPT_UNKNOWN_MSG by the message table, and an advance by the claimed length. -/
def Obligations.WholeFrameIsAccepted : Prop :=
  ∀ (s : State) (pre payload rest : Bytes) (b1 msg n : U8) (ts : U32) (rssi : U8) (crc : U16) (trailers : Bytes)
    (valid : Bool),
    trailers = (if b1.getLsbD 5 then LE32 ts else []) ++ (if b1.getLsbD 6 then [rssi] else []) →
    StandsAt s pre (0xA5 :: b1 :: msg :: n ::
      (payload ++ trailers ++ (if b1.getLsbD 7 then LE16 crc else []) ++ rest)) →
    endpointOk b1 → payload.length = n.toNat →
    (b1.getLsbD 7 = true → crc = Sys2Proof.Machine.crc16 ([b1, msg, n] ++ payload ++ trailers)) →
    valid = (if b1.toNat % 16 = 1 then Config.params.msgTable .devMgmt msg
      else if b1.toNat % 16 = 2 then Config.params.msgTable .radioLink msg else false) →
    exec .decStep s = .next
      (afterIteration s (if valid then .accept else .acceptUnknownMsg)
        (some
          { flags := BitVec.ofNat 4 (b1.toNat / 16), endpoint := BitVec.ofNat 4 (b1.toNat % 16), message_id := msg,
            message_valid := valid, payload := payload,
            timestamp := if b1.getLsbD 5 then ts else 0,
            rssi := if b1.getLsbD 6 then rssi else 0,
            crc := if b1.getLsbD 7 then crc else 0 })
        (4 + n.toNat + trailerBytes b1))

/-- R146, R148: in a well-formed pass DEC_STEP always completes; it appends one event at the old cursor, moves the cursor
forward but not past dec_len, touches neither the buffer nor crc_reg, and the phase is DONE exactly at dec_len. -/
def Obligations.DecStepAdvancesWithinBuffer : Prop :=
  ∀ s : State, s.dec_phase = .scan → Memory.wf s → s.dec_off < s.dec_len →
    ∃ (t : State) (code : EventCode) (fr : Option DecodedFrame),
      exec .decStep s = .next t ∧ s.dec_off < t.dec_off ∧ t.dec_off ≤ s.dec_len ∧
      t.dec_buf = s.dec_buf ∧ t.dec_len = s.dec_len ∧ t.crc_reg = s.crc_reg ∧ t.port = s.port ∧
      t.dec_events = s.dec_events ++ [{ code := code, offset := s.dec_off }] ∧
      t.dec_out = s.dec_out ++ fr.toList ∧ fr.isSome = keepsFrame code ∧
      t.dec_phase = (if t.dec_off = t.dec_len then .done else .scan) ∧
      t.responses = s.responses ++
        [{ status := .ok, result := .step { code := code, offset := s.dec_off } fr }]

/-- R143, R144: DECODE of a buffer within P_BUF_MAX completes from every state, with the whole buffer scanned in at most
as many iterations as it has bytes, and returns the frames and events it leaves in the registers. -/
def Obligations.DecodeScansWholeBuffer : Prop :=
  ∀ (buf : Bytes) (s : State), buf.length ≤ Config.params.bufMax →
    ∃ t : State, exec (.decode buf) s = .next t ∧
      t.dec_phase = .done ∧ t.dec_buf = buf ∧ t.dec_len = buf.length ∧ t.dec_off = buf.length ∧
      t.dec_events.length ≤ buf.length ∧ t.crc_reg = s.crc_reg ∧ t.port = s.port ∧
      t.responses = s.responses ++ [{ status := .ok, result := .frames t.dec_out t.dec_events }]

/-- R143, R90: DECODE leaves the registers that DEC_START and then at most len(buf) DEC_STEPs leave, in phase DONE. -/
def Obligations.DecodeIsStartThenSteps : Prop :=
  ∀ (buf : Bytes) (s : State), buf.length ≤ Config.params.bufMax →
    ∃ (n : Nat) (t u : State), n ≤ buf.length ∧ exec (.decode buf) s = .next t ∧
      runOps (.decStart buf :: List.replicate n .decStep) s = .next u ∧
      u.dec_phase = .done ∧ n = u.dec_events.length ∧ { u with responses := t.responses } = t

/-- R149. -/
def Obligations.DecStatusReturnsRegisters : Prop :=
  ∀ s : State, exec .decStatus s = .next
    { s with
      responses := s.responses ++
        [{ status := .ok, result := .status s.dec_phase s.dec_off s.dec_len s.dec_out s.dec_events }] }

/-- R142: the whole next-phase relation. -/
def Obligations.PhaseTransitions : Prop :=
  (∀ (i : Instr) (s t : State), exec i s = .next t →
    t.dec_phase =
      match i with
      | .decStart buf => if Config.params.bufMax < buf.length then s.dec_phase else if buf.length = 0 then .done else .scan
      | .decode buf => if Config.params.bufMax < buf.length then s.dec_phase else .done
      | .decStep => if s.dec_phase = .scan then (if t.dec_off = s.dec_len then .done else .scan) else s.dec_phase
      | .crcInit | .crcUpdate _ | .crcRead | .crc16 _ | .encode _ | .decStatus => s.dec_phase) ∧
  (∀ (s t : State) (rest : List HostInput), s.port = .reset :: rest → step s = .next t → t.dec_phase = .idle)

/-! ## Laws of the decoder -/

/-- R167: under EMIT, DECODE of an encoded frame with a valid endpoint gives exactly that frame, in one event. Under OMIT
the same holds when no timestamp and no RSSI flag is set, and only then. -/
def Obligations.DecodeOfEncodeRoundTrip : Prop :=
  ∀ (P : Params) (f : Frame) (s : State), Decodable f → (encodeFrame P f).length ≤ P.bufMax →
    ∃ t : State, decodeOp P (encodeFrame P f) s = .next t ∧
      ((P.encTrailers = .emit ∨ (TS f.flags = false ∧ RS f.flags = false)) →
        t.dec_out = [decodedOf P f] ∧
        t.dec_events = [{ code := acceptCode (messageValid P f.endpoint f.message_id), offset := 0 }]) ∧
      (P.encTrailers = .omitted → TS f.flags = true ∨ RS f.flags = true →
        t.dec_events.head? = some { code := .truncated, offset := 0 })

/-- The converse of R167: whatever DEC_STEP keeps is, byte for byte, the encoding of the frame it reports, at the cursor
it started from (R165: it need not have been sent). -/
def Obligations.AcceptedBytesAreAnEncoding : Prop :=
  ∀ (s t : State) (d : DecodedFrame), Memory.wf s → s.dec_phase = .scan → exec .decStep s = .next t →
    t.dec_out = s.dec_out ++ [d] →
    encodeFrame Config.params (frameOf d) = (s.dec_buf.drop s.dec_off).take (t.dec_off - s.dec_off) ∧
    Decodable (frameOf d) ∧ d = decodedOf Config.params (frameOf d)

/-- R168: two encoded frames, one after the other, decode to the two frames in order. -/
def Obligations.ConcatenatedFramesDecodeInOrder : Prop :=
  ∀ (P : Params) (f1 f2 : Frame) (s : State), P.encTrailers = .emit → Decodable f1 → Decodable f2 →
    (encodeFrame P f1 ++ encodeFrame P f2).length ≤ P.bufMax →
    ∃ t : State, decodeOp P (encodeFrame P f1 ++ encodeFrame P f2) s = .next t ∧
      t.dec_out = [decodedOf P f1, decodedOf P f2] ∧
      t.dec_events =
        [{ code := acceptCode (messageValid P f1.endpoint f1.message_id), offset := 0 },
         { code := acceptCode (messageValid P f2.endpoint f2.message_id), offset := (encodeFrame P f1).length }]

/-- From R160 and R167: any number of encoded frames, with bytes other than the SOF before, between and after them, all
decode, in order; there is one event for each frame and one for each byte of noise. -/
def Obligations.NoiseBetweenFramesLosesNone : Prop :=
  ∀ (P : Params) (parts : List (Bytes × Frame)) (tail : Bytes) (s : State), P.encTrailers = .emit →
    (∀ p ∈ parts, (∀ b ∈ p.1, b ≠ 0xA5) ∧ Decodable p.2) → (∀ b ∈ tail, b ≠ 0xA5) →
    ((parts.flatMap fun p => p.1 ++ encodeFrame P p.2) ++ tail).length ≤ P.bufMax →
    ∃ t : State, decodeOp P ((parts.flatMap fun p => p.1 ++ encodeFrame P p.2) ++ tail) s = .next t ∧
      t.dec_out = parts.map (fun p => decodedOf P p.2) ∧
      t.dec_events.length = parts.length + (parts.map fun p => p.1.length).sum + tail.length

/-- R169: in an encoded frame with CRC16Field set, wherever it stands in the buffer, change one byte: a payload, trailer,
CRC or message-id byte, or the flags/endpoint byte so that endpoint and claimed length stay valid and unchanged. The
iteration at its start reports INTEGRITY, keeps nothing and passes the claimed length. -/
def Obligations.OneByteCorruptionIsDetected : Prop :=
  ∀ (f : Frame) (s : State) (pre rest : Bytes) (k : Nat) (x : U8), Decodable f → CR f.flags = true →
    k < (encodeFrame Config.params f).length → k ≠ 0 → k ≠ 3 → (encodeFrame Config.params f)[k]? ≠ some x →
    (k = 1 → endpointOk x ∧ claimedLen (flagsOf x) f.payload.length = claimedLen f.flags f.payload.length) →
    StandsAt s pre ((encodeFrame Config.params f).set k x ++ rest) →
    exec .decStep s = .next (afterIteration s .integrity none (encodeFrame Config.params f).length)

/-- R153: P_MSG_TABLE decides message_valid and the choice between ACCEPT and ACCEPT_UNKNOWN_MSG, and nothing else of a
pass: neither which frames are kept nor where the cursor goes. -/
def Obligations.MessageTableOnlyDecidesValidity : Prop :=
  ∀ (P Q : Params) (buf : Bytes) (s : State), P.bufMax = Q.bufMax → buf.length ≤ P.bufMax →
    ∃ t u : State, decodeOp P buf s = .next t ∧ decodeOp Q buf s = .next u ∧
      t.dec_events.map blurEvent = u.dec_events.map blurEvent ∧
      t.dec_out.map eraseValid = u.dec_out.map eraseValid ∧
      t.dec_off = u.dec_off ∧ t.dec_phase = u.dec_phase ∧ t.crc_reg = u.crc_reg

/-- R164: in a candidate without CRC, flipping the Reserved bit changes neither the event nor the advance, and of the
frame only its flags. -/
def Obligations.ReservedFlagHasNoEffect : Prop :=
  (∀ (flags : U4) (N : Nat), claimedLen (flags ^^^ 1) N = claimedLen flags N) ∧
  ∀ (s : State) (pre rest : Bytes) (b1 : U8), StandsAt s pre (0xA5 :: b1 :: rest) → b1.getLsbD 7 = false →
    ∃ (code : EventCode) (fr : Option DecodedFrame) (advance : Nat),
      exec .decStep s = .next (afterIteration s code fr advance) ∧
      exec .decStep { s with dec_buf := pre ++ 0xA5 :: (b1 ^^^ 0x10) :: rest } =
        .next (afterIteration { s with dec_buf := pre ++ 0xA5 :: (b1 ^^^ 0x10) :: rest } code
          (fr.map fun d => { d with flags := d.flags ^^^ 1 }) advance)

/-- R166, R141, R143: nothing of an earlier pass, and not crc_reg, reaches a new one: from two states DEC_START leaves the
same decoder registers, and so does DECODE. -/
def Obligations.NoStateCarriesBetweenPasses : Prop :=
  ∀ (buf : Bytes) (i : Instr) (s s' t t' : State), buf.length ≤ Config.params.bufMax →
    (i = .decStart buf ∨ i = .decode buf) → exec i s = .next t → exec i s' = .next t' →
    t.dec_phase = t'.dec_phase ∧ t.dec_buf = t'.dec_buf ∧ t.dec_len = t'.dec_len ∧ t.dec_off = t'.dec_off ∧
    t.dec_out = t'.dec_out ∧ t.dec_events = t'.dec_events ∧ t.responses.getLast? = t'.responses.getLast?

/-! ## The whole machine -/

/-- The W column of R21, and R33, R70: when an operation completes, every register it does not write is as before (so is
every byte of the input buffer, unless the operation loads one), and exactly one response is given. -/
def Obligations.OnlyWritersChangeRegisters : Prop :=
  ∀ (i : Instr) (s t : State), exec i s = .next t →
    ((i ≠ .crcInit ∧ (∀ b, i ≠ .crcUpdate b) ∧ ∀ bs, i ≠ .crc16 bs) → t.crc_reg = s.crc_reg) ∧
    (((∀ b, i ≠ .decStart b) ∧ ∀ b, i ≠ .decode b) →
      t.dec_buf = s.dec_buf ∧ t.dec_len = s.dec_len ∧ ∀ a, bufRead t a = bufRead s a) ∧
    (((∀ b, i ≠ .decStart b) ∧ (∀ b, i ≠ .decode b) ∧ i ≠ .decStep) →
      t.dec_phase = s.dec_phase ∧ t.dec_off = s.dec_off ∧ t.dec_out = s.dec_out ∧ t.dec_events = s.dec_events) ∧
    t.port = s.port ∧ ∃ r, t.responses = s.responses ++ [r]

/-- The R column of R21 for crc_reg, with R36: the encoder and the decoder run the same whatever crc_reg holds, and leave
it so. -/
def Obligations.EncoderAndDecoderIgnoreCrcReg : Prop :=
  ∀ (i : Instr) (s t : State) (v : U16),
    ((∃ f, i = .encode f) ∨ (∃ buf, i = .decStart buf) ∨ i = .decStep ∨ (∃ buf, i = .decode buf) ∨ i = .decStatus) →
    exec i s = .next t → exec i { s with crc_reg := v } = .next { t with crc_reg := v }

/-- The R column of R21 for the decoder's registers: the CRC Engine's operations and ENCODE answer the same whatever the
decoder holds. -/
def Obligations.CrcEngineIgnoresDecoder : Prop :=
  ∀ (i : Instr) (s s' t t' : State),
    (i = .crcInit ∨ (∃ b, i = .crcUpdate b) ∨ i = .crcRead ∨ (∃ bs, i = .crc16 bs) ∨ ∃ f, i = .encode f) →
    s.crc_reg = s'.crc_reg → exec i s = .next t → exec i s' = .next t' →
    t.crc_reg = t'.crc_reg ∧ t.responses.getLast? = t'.responses.getLast?

/-- R33, R183: a step that answers ILLEGAL_OP or REFUSED changes no register, and REFUSED is answered only to DEC_START
and DECODE, only for a buffer over P_BUF_MAX. -/
def Obligations.RejectedOperationChangesNoRegister : Prop :=
  ∀ (s t : State) (q : Request) (rest : List HostInput) (r : Response), s.port = .op q :: rest → step s = .next t →
    t.responses = s.responses ++ [r] →
    (r.status ≠ .ok → t = { s with port := rest, responses := s.responses ++ [r] } ∧ r.result = .none) ∧
    (r.status = .illegalOp ↔ decode q = .error (.illegalOp q.op)) ∧
    (r.status = .refused ↔ ∃ buf, Config.params.bufMax < buf.length ∧
      (q = encode (.decStart buf) ∨ q = encode (.decode buf)))

/-- R39 holds after reset. -/
def Obligations.ResetMeetsInvariants : Prop :=
  Inv Config.params State.reset ∧ PassLog State.reset ∧ ∀ d ∈ State.reset.dec_out, LegalFrame Config.params d

/-- R39: every step keeps the invariant. -/
def Obligations.StepKeepsDecoderInvariant : Prop :=
  ∀ s t : State, Inv Config.params s → step s = .next t → Inv Config.params t

/-- R28, R29, R22: every step keeps the event list of the pass in rising order behind the cursor, one frame for each
event that keeps one. -/
def Obligations.StepKeepsPassLog : Prop :=
  ∀ s t : State, PassLog s → step s = .next t → PassLog t

/-- R34, R157: every step keeps every frame in dec_out legal. -/
def Obligations.StepKeepsFramesLegal : Prop :=
  ∀ s t : State, (∀ d ∈ s.dec_out, LegalFrame Config.params d) → step s = .next t →
    ∀ d ∈ t.dec_out, LegalFrame Config.params d

/-- R52, R180: in a state that meets R39 no step faults, and none is refused but for a request the host cannot issue. -/
def Obligations.NoStepStopsOnPresentableInput : Prop :=
  ∀ s : State, Inv Config.params s →
    (∀ r : Fault, step s ≠ .fault r) ∧
    ((∀ x ∈ s.port.head?, Presentable x) → ∃ t : State, step s = .next t)

/-- R63, R70, R200, R212: whatever presentable sequence of operations, illegal codes and resets the host issues, the block
takes each in one step from reset, ends with none left, has answered every operation once and no reset, and meets R39.
That the inputs after a reset input are still worked off, and that the responses given before it are still there to count
(t.port = [] and the length of t.responses), is the model's choice (log 1), not a rule of the spec. -/
def Obligations.EveryHostProgramCompletes : Prop :=
  ∀ inputs : List HostInput, (∀ x ∈ inputs, Presentable x) →
    ∃ t : State, Host.Core.run Sys2Proof.core inputs.length { State.reset with port := inputs } = .next t ∧
      t.port = [] ∧ t.responses.length = (inputs.filter fun x => decide (x ≠ .reset)).length ∧
      Inv Config.params t ∧ PassLog t

/-- R8, D15: where R39 holds, the cursor and the sum o + F formed before it is compared fit in P_OFF_BITS bits. -/
def Obligations.CursorFitsItsRegister : Prop :=
  ∀ (s : State) (flags : U4) (n : U8), Inv Config.params s →
    s.dec_off + claimedLen flags n.toNat < 2 ^ Config.params.offBits
end

