-- ==== Sys2Proof/Laws/Crc.lean ====
section
/-! SUPPORT. The CRC functions of spec/40_crc.md R100 to R102: how they unfold over a sequence, and that the bit step is
linear (R107: the only operations are XOR and logical right shift). -/

namespace Sys2Proof.Machine

@[simp] theorem crcBytes_nil (r : U16) : crcBytes r [] = r := rfl

@[simp] theorem crcBytes_cons (r : U16) (b : U8) (s : Bytes) : crcBytes r (b :: s) = crcBytes (crcByte r b) s := rfl

theorem crcBytes_append (r : U16) (s t : Bytes) : crcBytes r (s ++ t) = crcBytes (crcBytes r s) t :=
  List.foldl_append

/-- The byte steps of a sequence are the bit steps of its bits, in CRC order. -/
theorem crcBytes_eq_bits (r : U16) (s : Bytes) : crcBytes r s = (s.flatMap bitsOfByte).foldl crcBit r := by
  induction s generalizing r with
  | nil => rfl
  | cons b s ih => simp [List.foldl_append, ih, crcByte]

@[simp] theorem bitsOfByte_length (b : U8) : (bitsOfByte b).length = 8 := rfl

theorem crcBit_xor (r s : U16) (d e : Bool) : crcBit (r ^^^ s) (d ^^ e) = crcBit r d ^^^ crcBit s e := by
  have hx : ∀ a b p : U16, (a ^^^ p) ^^^ (b ^^^ p) = a ^^^ b := by
    intro a b p; ext i; simp; cases a[i] <;> cases b[i] <;> cases p[i] <;> rfl
  have h1 : ∀ a b p : U16, (a ^^^ p) ^^^ b = (a ^^^ b) ^^^ p := by
    intro a b p; ext i; simp; cases a[i] <;> cases b[i] <;> cases p[i] <;> rfl
  simp only [crcBit, BitVec.getLsbD_xor, BitVec.ushiftRight_xor_distrib]
  cases r.getLsbD 0 <;> cases s.getLsbD 0 <;> cases d <;> cases e <;>
    simp [hx, h1, BitVec.xor_assoc, BitVec.xor_comm CRC_POLY (s >>> 1)]

/-- A bit step whose result has bit 15 clear took no polynomial. -/
theorem crcBit_of_msb_clear {r : U16} {d : Bool} (h : (crcBit r d).getLsbD 15 = false) :
    d = r.getLsbD 0 ∧ crcBit r d = r >>> 1 := by
  have hp : (r >>> 1).getLsbD 15 = false := by simp
  have hc : CRC_POLY.getLsbD 15 = true := by decide
  unfold crcBit at h ⊢
  split at h
  · rw [BitVec.getLsbD_xor, hp, hc] at h; exact absurd h (by decide)
  · rename_i hd; refine ⟨?_, by rw [if_neg hd]⟩
    revert hd; cases d <;> cases r.getLsbD 0 <;> simp

end Sys2Proof.Machine
end

