-- ==== Sys2Proof/Laws/State.lean ====
section
/-! SUPPORT. One lemma per field of State per update: later proofs never unfold a record update. -/

namespace Sys2Proof.Machine

/-! respond -/

@[simp] theorem respond_crc_reg (s : State) (st : Status) (r : Result) : (respond s st r).crc_reg = s.crc_reg := rfl
@[simp] theorem respond_dec_phase (s : State) (st : Status) (r : Result) : (respond s st r).dec_phase = s.dec_phase := rfl
@[simp] theorem respond_dec_buf (s : State) (st : Status) (r : Result) : (respond s st r).dec_buf = s.dec_buf := rfl
@[simp] theorem respond_dec_len (s : State) (st : Status) (r : Result) : (respond s st r).dec_len = s.dec_len := rfl
@[simp] theorem respond_dec_off (s : State) (st : Status) (r : Result) : (respond s st r).dec_off = s.dec_off := rfl
@[simp] theorem respond_dec_out (s : State) (st : Status) (r : Result) : (respond s st r).dec_out = s.dec_out := rfl
@[simp] theorem respond_dec_events (s : State) (st : Status) (r : Result) : (respond s st r).dec_events = s.dec_events := rfl
@[simp] theorem respond_port (s : State) (st : Status) (r : Result) : (respond s st r).port = s.port := rfl
@[simp] theorem respond_responses (s : State) (st : Status) (r : Result) : (respond s st r).responses = s.responses ++ [{ status := st, result := r }] := rfl

/-! pushFrame -/

@[simp] theorem pushFrame_crc_reg (s : State) (d : DecodedFrame) : (pushFrame s d).crc_reg = s.crc_reg := rfl
@[simp] theorem pushFrame_dec_phase (s : State) (d : DecodedFrame) : (pushFrame s d).dec_phase = s.dec_phase := rfl
@[simp] theorem pushFrame_dec_buf (s : State) (d : DecodedFrame) : (pushFrame s d).dec_buf = s.dec_buf := rfl
@[simp] theorem pushFrame_dec_len (s : State) (d : DecodedFrame) : (pushFrame s d).dec_len = s.dec_len := rfl
@[simp] theorem pushFrame_dec_off (s : State) (d : DecodedFrame) : (pushFrame s d).dec_off = s.dec_off := rfl
@[simp] theorem pushFrame_dec_out (s : State) (d : DecodedFrame) : (pushFrame s d).dec_out = s.dec_out ++ [d] := rfl
@[simp] theorem pushFrame_dec_events (s : State) (d : DecodedFrame) : (pushFrame s d).dec_events = s.dec_events := rfl
@[simp] theorem pushFrame_port (s : State) (d : DecodedFrame) : (pushFrame s d).port = s.port := rfl
@[simp] theorem pushFrame_responses (s : State) (d : DecodedFrame) : (pushFrame s d).responses = s.responses := rfl

/-! pushEvent -/

@[simp] theorem pushEvent_crc_reg (s : State) (e : Event) : (pushEvent s e).crc_reg = s.crc_reg := rfl
@[simp] theorem pushEvent_dec_phase (s : State) (e : Event) : (pushEvent s e).dec_phase = s.dec_phase := rfl
@[simp] theorem pushEvent_dec_buf (s : State) (e : Event) : (pushEvent s e).dec_buf = s.dec_buf := rfl
@[simp] theorem pushEvent_dec_len (s : State) (e : Event) : (pushEvent s e).dec_len = s.dec_len := rfl
@[simp] theorem pushEvent_dec_off (s : State) (e : Event) : (pushEvent s e).dec_off = s.dec_off := rfl
@[simp] theorem pushEvent_dec_out (s : State) (e : Event) : (pushEvent s e).dec_out = s.dec_out := rfl
@[simp] theorem pushEvent_dec_events (s : State) (e : Event) : (pushEvent s e).dec_events = s.dec_events ++ [e] := rfl
@[simp] theorem pushEvent_port (s : State) (e : Event) : (pushEvent s e).port = s.port := rfl
@[simp] theorem pushEvent_responses (s : State) (e : Event) : (pushEvent s e).responses = s.responses := rfl

/-! takeInput -/

@[simp] theorem takeInput_crc_reg (s : State) (rest : List HostInput) : (takeInput s rest).crc_reg = s.crc_reg := rfl
@[simp] theorem takeInput_dec_phase (s : State) (rest : List HostInput) : (takeInput s rest).dec_phase = s.dec_phase := rfl
@[simp] theorem takeInput_dec_buf (s : State) (rest : List HostInput) : (takeInput s rest).dec_buf = s.dec_buf := rfl
@[simp] theorem takeInput_dec_len (s : State) (rest : List HostInput) : (takeInput s rest).dec_len = s.dec_len := rfl
@[simp] theorem takeInput_dec_off (s : State) (rest : List HostInput) : (takeInput s rest).dec_off = s.dec_off := rfl
@[simp] theorem takeInput_dec_out (s : State) (rest : List HostInput) : (takeInput s rest).dec_out = s.dec_out := rfl
@[simp] theorem takeInput_dec_events (s : State) (rest : List HostInput) : (takeInput s rest).dec_events = s.dec_events := rfl
@[simp] theorem takeInput_port (s : State) (rest : List HostInput) : (takeInput s rest).port = rest := rfl
@[simp] theorem takeInput_responses (s : State) (rest : List HostInput) : (takeInput s rest).responses = s.responses := rfl

/-! resetInput -/

@[simp] theorem resetInput_crc_reg (s : State) : (resetInput s).crc_reg = 0xFFFF := rfl
@[simp] theorem resetInput_dec_phase (s : State) : (resetInput s).dec_phase = .idle := rfl
@[simp] theorem resetInput_dec_buf (s : State) : (resetInput s).dec_buf = [] := rfl
@[simp] theorem resetInput_dec_len (s : State) : (resetInput s).dec_len = 0 := rfl
@[simp] theorem resetInput_dec_off (s : State) : (resetInput s).dec_off = 0 := rfl
@[simp] theorem resetInput_dec_out (s : State) : (resetInput s).dec_out = [] := rfl
@[simp] theorem resetInput_dec_events (s : State) : (resetInput s).dec_events = [] := rfl
@[simp] theorem resetInput_port (s : State) : (resetInput s).port = s.port := rfl
@[simp] theorem resetInput_responses (s : State) : (resetInput s).responses = s.responses := rfl

/-! moveCursor -/

@[simp] theorem moveCursor_crc_reg (s : State) (o' : Nat) : (moveCursor s o').crc_reg = s.crc_reg := rfl
@[simp] theorem moveCursor_dec_phase (s : State) (o' : Nat) : (moveCursor s o').dec_phase = if o' = s.dec_len then .done else s.dec_phase := rfl
@[simp] theorem moveCursor_dec_buf (s : State) (o' : Nat) : (moveCursor s o').dec_buf = s.dec_buf := rfl
@[simp] theorem moveCursor_dec_len (s : State) (o' : Nat) : (moveCursor s o').dec_len = s.dec_len := rfl
@[simp] theorem moveCursor_dec_off (s : State) (o' : Nat) : (moveCursor s o').dec_off = o' := rfl
@[simp] theorem moveCursor_dec_out (s : State) (o' : Nat) : (moveCursor s o').dec_out = s.dec_out := rfl
@[simp] theorem moveCursor_dec_events (s : State) (o' : Nat) : (moveCursor s o').dec_events = s.dec_events := rfl
@[simp] theorem moveCursor_port (s : State) (o' : Nat) : (moveCursor s o').port = s.port := rfl
@[simp] theorem moveCursor_responses (s : State) (o' : Nat) : (moveCursor s o').responses = s.responses := rfl

/-! loadPass -/

@[simp] theorem loadPass_crc_reg (s : State) (buf : Bytes) : (loadPass buf s).crc_reg = s.crc_reg := rfl
@[simp] theorem loadPass_dec_phase (s : State) (buf : Bytes) : (loadPass buf s).dec_phase = if buf.length = 0 then .done else .scan := rfl
@[simp] theorem loadPass_dec_buf (s : State) (buf : Bytes) : (loadPass buf s).dec_buf = buf := rfl
@[simp] theorem loadPass_dec_len (s : State) (buf : Bytes) : (loadPass buf s).dec_len = buf.length := rfl
@[simp] theorem loadPass_dec_off (s : State) (buf : Bytes) : (loadPass buf s).dec_off = 0 := rfl
@[simp] theorem loadPass_dec_out (s : State) (buf : Bytes) : (loadPass buf s).dec_out = [] := rfl
@[simp] theorem loadPass_dec_events (s : State) (buf : Bytes) : (loadPass buf s).dec_events = [] := rfl
@[simp] theorem loadPass_port (s : State) (buf : Bytes) : (loadPass buf s).port = s.port := rfl
@[simp] theorem loadPass_responses (s : State) (buf : Bytes) : (loadPass buf s).responses = s.responses := rfl

/-! withFetchWord -/

@[simp] theorem withFetchWord_crc_reg (s : State) (nbits w : Nat) : (s.withFetchWord nbits w).crc_reg = s.crc_reg := rfl
@[simp] theorem withFetchWord_dec_phase (s : State) (nbits w : Nat) : (s.withFetchWord nbits w).dec_phase = s.dec_phase := rfl
@[simp] theorem withFetchWord_dec_buf (s : State) (nbits w : Nat) : (s.withFetchWord nbits w).dec_buf = s.dec_buf := rfl
@[simp] theorem withFetchWord_dec_len (s : State) (nbits w : Nat) : (s.withFetchWord nbits w).dec_len = s.dec_len := rfl
@[simp] theorem withFetchWord_dec_off (s : State) (nbits w : Nat) : (s.withFetchWord nbits w).dec_off = s.dec_off := rfl
@[simp] theorem withFetchWord_dec_out (s : State) (nbits w : Nat) : (s.withFetchWord nbits w).dec_out = s.dec_out := rfl
@[simp] theorem withFetchWord_dec_events (s : State) (nbits w : Nat) : (s.withFetchWord nbits w).dec_events = s.dec_events := rfl
@[simp] theorem withFetchWord_port (s : State) (nbits w : Nat) : (s.withFetchWord nbits w).port = .op (Request.ofWord nbits w) :: s.port := rfl
@[simp] theorem withFetchWord_responses (s : State) (nbits w : Nat) : (s.withFetchWord nbits w).responses = s.responses := rfl

/-! pushFrame? -/

@[simp] theorem pushFrame?_crc_reg (s : State) (fr : Option DecodedFrame) : (pushFrame? s fr).crc_reg = s.crc_reg := by
  cases fr <;> simp [pushFrame?]
@[simp] theorem pushFrame?_dec_phase (s : State) (fr : Option DecodedFrame) : (pushFrame? s fr).dec_phase = s.dec_phase := by
  cases fr <;> simp [pushFrame?]
@[simp] theorem pushFrame?_dec_buf (s : State) (fr : Option DecodedFrame) : (pushFrame? s fr).dec_buf = s.dec_buf := by
  cases fr <;> simp [pushFrame?]
@[simp] theorem pushFrame?_dec_len (s : State) (fr : Option DecodedFrame) : (pushFrame? s fr).dec_len = s.dec_len := by
  cases fr <;> simp [pushFrame?]
@[simp] theorem pushFrame?_dec_off (s : State) (fr : Option DecodedFrame) : (pushFrame? s fr).dec_off = s.dec_off := by
  cases fr <;> simp [pushFrame?]
@[simp] theorem pushFrame?_dec_out (s : State) (fr : Option DecodedFrame) : (pushFrame? s fr).dec_out = s.dec_out ++ fr.toList := by
  cases fr <;> simp [pushFrame?]
@[simp] theorem pushFrame?_dec_events (s : State) (fr : Option DecodedFrame) : (pushFrame? s fr).dec_events = s.dec_events := by
  cases fr <;> simp [pushFrame?]
@[simp] theorem pushFrame?_port (s : State) (fr : Option DecodedFrame) : (pushFrame? s fr).port = s.port := by
  cases fr <;> simp [pushFrame?]
@[simp] theorem pushFrame?_responses (s : State) (fr : Option DecodedFrame) : (pushFrame? s fr).responses = s.responses := by
  cases fr <;> simp [pushFrame?]

/-! applyIter -/

@[simp] theorem applyIter_crc_reg (s : State) (r : IterResult) : (applyIter s r).crc_reg = s.crc_reg := by
  simp [applyIter]
@[simp] theorem applyIter_dec_phase (s : State) (r : IterResult) : (applyIter s r).dec_phase = if r.next = s.dec_len then .done else s.dec_phase := by
  simp [applyIter]
@[simp] theorem applyIter_dec_buf (s : State) (r : IterResult) : (applyIter s r).dec_buf = s.dec_buf := by
  simp [applyIter]
@[simp] theorem applyIter_dec_len (s : State) (r : IterResult) : (applyIter s r).dec_len = s.dec_len := by
  simp [applyIter]
@[simp] theorem applyIter_dec_off (s : State) (r : IterResult) : (applyIter s r).dec_off = r.next := by
  simp [applyIter]
@[simp] theorem applyIter_dec_out (s : State) (r : IterResult) : (applyIter s r).dec_out = s.dec_out ++ r.frame.toList := by
  simp [applyIter]
@[simp] theorem applyIter_dec_events (s : State) (r : IterResult) : (applyIter s r).dec_events = s.dec_events ++ [iterEvent r s.dec_off] := by
  simp [applyIter]
@[simp] theorem applyIter_port (s : State) (r : IterResult) : (applyIter s r).port = s.port := by
  simp [applyIter]
@[simp] theorem applyIter_responses (s : State) (r : IterResult) : (applyIter s r).responses = s.responses := by
  simp [applyIter]

end Sys2Proof.Machine
end

