-- ==== Sys2Proof/Laws/Ops.lean ====
section
/-! SUPPORT. What the shared operations over the input buffer and the decoder can do, each said once. -/

namespace Sys2Proof.Machine

/-! ## BufRead -/

theorem bufRead_eq_some {s : State} {i : Nat} {b : U8} :
    bufRead s i = some b ↔ i < s.dec_len ∧ s.dec_buf[i]? = some b := by
  unfold bufRead; split <;> simp_all

theorem bufRead_of_wf {s : State} (h : Memory.wf s) (i : Nat) : bufRead s i = s.dec_buf[i]? := by
  unfold bufRead; split
  · rfl
  · rename_i hi; rw [List.getElem?_eq_none]; have := h; simp only [Memory.wf] at this; omega

theorem bufRead_congr {s t : State} (hb : s.dec_buf = t.dec_buf) (hl : s.dec_len = t.dec_len) :
    bufRead s = bufRead t := by
  funext i; simp [bufRead, hb, hl]

theorem bufSlice_length {s : State} : ∀ {n i : Nat} {bs : Bytes}, bufSlice s i n = some bs → bs.length = n
  | 0, _, _, h => by simp [bufSlice] at h; simp [← h]
  | n + 1, i, bs, h => by
    simp only [bufSlice, Option.bind_eq_bind, Option.bind_eq_some_iff, Option.some.injEq] at h
    obtain ⟨b, -, cs, hcs, rfl⟩ := h
    simp [bufSlice_length hcs]

theorem bufSlice_of_wf {s : State} (h : Memory.wf s) :
    ∀ (n i : Nat), i + n ≤ s.dec_buf.length → bufSlice s i n = some ((s.dec_buf.drop i).take n)
  | 0, _, _ => by simp [bufSlice]
  | n + 1, i, hi => by
    have hlt : i < s.dec_buf.length := by omega
    rw [List.drop_eq_getElem_cons hlt, List.take_succ_cons, bufSlice, bufRead_of_wf h,
      bufSlice_of_wf h n (i + 1) (by omega), List.getElem?_eq_getElem hlt]
    rfl

theorem bufSlice_congr {s t : State} (hb : s.dec_buf = t.dec_buf) (hl : s.dec_len = t.dec_len) :
    ∀ n i : Nat, bufSlice s i n = bufSlice t i n
  | 0, _ => rfl
  | n + 1, i => by simp only [bufSlice, bufRead_congr hb hl, bufSlice_congr hb hl n (i + 1)]

/-! ## The iteration -/

/-- scan_iter reads only dec_buf and dec_len (R145). -/
theorem scanIter_congr {P : Params} {s t : State} (hb : s.dec_buf = t.dec_buf) (hl : s.dec_len = t.dec_len) (o : Nat) :
    scanIter P s o = scanIter P t o := by
  have hr := bufRead_congr hb hl
  have hs : bufSlice s = bufSlice t := by funext i n; exact bufSlice_congr hb hl n i
  simp only [scanIter, scanHeader, scanBody, readTimestamp, readRssi, readCrc, hr, hs, hl]

/-- What a whole candidate can come to (R155, R158, R163). -/
theorem scanBody_cases {P : Params} {s : State} {o N F : Nat} {flags ep : U4} {msg : U8} {r : IterResult}
    (h : scanBody P s o flags ep msg N F = some r) :
    r = dropped .integrity (o + F) ∨
    ∃ (payload : Bytes) (ts : U32) (rssi : U8) (crc : U16),
      r = acceptFrame P o (N + tsLen flags + rssiLen flags + crcLen flags) flags ep msg payload ts rssi crc ∧
      payload.length = N ∧ (TS flags = false → ts = 0) ∧ (RS flags = false → rssi = 0) ∧ (CR flags = false → crc = 0) := by
  simp only [scanBody, Option.bind_eq_bind, Option.bind_eq_some_iff] at h
  obtain ⟨payload, hp, ts, hts, rssi, hrs, h⟩ := h
  have hts' : TS flags = false → ts = 0 := by intro hf; simp [readTimestamp, hf] at hts; exact hts.symm
  have hrs' : RS flags = false → rssi = 0 := by intro hf; simp [readRssi, hf] at hrs; exact hrs.symm
  split at h
  · rename_i hc
    simp only [Option.bind_eq_some_iff] at h
    obtain ⟨cov, -, rx, -, h⟩ := h
    split at h
    · exact .inl (by simpa using h.symm)
    · refine .inr ⟨payload, ts, rssi, rx, ?_, bufSlice_length hp, hts', hrs', by simp [hc]⟩
      simpa [crcLen, hc] using h.symm
  · rename_i hc
    refine .inr ⟨payload, ts, rssi, 0, ?_, bufSlice_length hp, hts', hrs', fun _ => rfl⟩
    simpa [crcLen, hc] using h.symm

/-- Everything an iteration can come to (R145, R181): the cursor is in the buffer; the candidate is dropped with an
advance by 1, or its claimed length F lies in the buffer and the cursor passes it, the frame dropped or kept. -/
theorem scanIter_cases {P : Params} {s : State} {o : Nat} {r : IterResult} (h : scanIter P s o = some r) :
    o < s.dec_len ∧
    (r = dropped .framing (o + 1) ∨ r = dropped .truncated (o + 1) ∨ r = dropped .unknownEndpoint (o + 1) ∨
      ∃ F, 4 ≤ F ∧ o + F ≤ s.dec_len ∧
        (r = dropped .integrity (o + F) ∨
          ∃ d, r = { code := acceptCode d.message_valid, frame := some d, next := o + F } ∧ LegalFrame P d)) := by
  simp only [scanIter, Option.bind_eq_bind, Option.bind_eq_some_iff] at h
  obtain ⟨b0, hb0, h⟩ := h
  refine ⟨(bufRead_eq_some.mp hb0).1, ?_⟩
  split at h
  · exact .inl (by simpa using h.symm)
  split at h
  · exact .inr (.inl (by simpa using h.symm))
  simp only [Option.bind_eq_some_iff] at h
  obtain ⟨b1, -, h⟩ := h
  simp only [scanHeader] at h
  split at h
  · exact .inr (.inr (.inl (by simpa using h.symm)))
  rename_i hep
  split at h
  · exact .inr (.inl (by simpa using h.symm))
  simp only [Option.bind_eq_bind, Option.bind_eq_some_iff] at h
  obtain ⟨msg, -, n, -, h⟩ := h
  split at h
  · exact .inr (.inl (by simpa using h.symm))
  rename_i hF
  refine .inr (.inr (.inr ⟨claimedLen (flagsOf b1) n.toNat, ?_, by omega, ?_⟩))
  · simp only [claimedLen, HDR_LEN]; omega
  rcases scanBody_cases h with hd | ⟨payload, ts, rssi, crc, rfl, hlen, hts, hrs, hcr⟩
  · exact .inl hd
  · refine .inr ⟨⟨flagsOf b1, endpointOf b1, msg, messageValid P (endpointOf b1) msg, payload, ts, rssi, crc⟩, ?_, ?_⟩
    · simp only [acceptFrame, acceptCode, claimedLen, HDR_LEN, IterResult.mk.injEq, true_and]; omega
    · exact
        { payload_le := hlen ▸ (by have := n.isLt; omega)
          endpoint_valid := by simpa using hep
          timestamp_absent := hts
          rssi_absent := hrs
          crc_absent := hcr
          valid_eq := rfl }

/-- In a well-formed state every iteration inside the buffer is defined (R52: no BufRead out of range). -/
theorem scanIter_defined {P : Params} {s : State} {o : Nat} (hw : Memory.wf s) (ho : o < s.dec_len) :
    ∃ r, scanIter P s o = some r := by
  have hw' : s.dec_len = s.dec_buf.length := hw
  have rd : ∀ i, i < s.dec_len → ∃ b, bufRead s i = some b := by
    intro i hi; exact ⟨s.dec_buf[i], bufRead_eq_some.mpr ⟨hi, List.getElem?_eq_getElem (hw' ▸ hi)⟩⟩
  have sl : ∀ i n, i + n ≤ s.dec_len → ∃ bs, bufSlice s i n = some bs := fun i n hi => ⟨_, bufSlice_of_wf hw n i (by omega)⟩
  obtain ⟨b0, h0⟩ := rd o ho
  simp only [scanIter, h0, Option.bind_eq_bind, Option.bind_some]
  split
  · exact ⟨_, rfl⟩
  split
  · exact ⟨_, rfl⟩
  rename_i h1
  obtain ⟨b1, hb1⟩ := rd (o + 1) (by omega)
  simp only [hb1, Option.bind_some, scanHeader]
  split
  · exact ⟨_, rfl⟩
  split
  · exact ⟨_, rfl⟩
  rename_i h4
  obtain ⟨msg, hm⟩ := rd (o + 2) (by omega)
  obtain ⟨n, hn⟩ := rd (o + 3) (by omega)
  simp only [hm, hn, Option.bind_eq_bind, Option.bind_some]
  split
  · exact ⟨_, rfl⟩
  rename_i hF
  simp only [claimedLen, HDR_LEN] at hF
  obtain ⟨pl, hp⟩ := sl (o + 4) n.toNat (by omega)
  have hts : ∃ ts, readTimestamp s (flagsOf b1) (o + 4 + n.toNat) = some ts := by
    simp only [readTimestamp]; split
    · rename_i ht; simp only [tsLen, ht] at hF
      obtain ⟨x, hx⟩ := sl (o + 4 + n.toNat) 4 (by simp at hF; omega)
      exact ⟨_, by rw [hx]; rfl⟩
    · exact ⟨_, rfl⟩
  obtain ⟨ts, hts⟩ := hts
  have hrs : ∃ rs, readRssi s (flagsOf b1) (o + 4 + (n.toNat + tsLen (flagsOf b1))) = some rs := by
    simp only [readRssi]; split
    · rename_i ht; simp only [rssiLen, ht] at hF
      exact rd _ (by simp at hF; omega)
    · exact ⟨_, rfl⟩
  obtain ⟨rs, hrs⟩ := hrs
  simp only [scanBody, hp, hts, hrs, Option.bind_eq_bind, Option.bind_some]
  split
  · rename_i hc
    simp only [crcLen, hc, if_true] at hF
    obtain ⟨cov, hcov⟩ := sl (o + 1) (3 + (n.toNat + tsLen (flagsOf b1) + rssiLen (flagsOf b1))) (by omega)
    obtain ⟨lo, hlo⟩ := rd (o + 4 + (n.toNat + tsLen (flagsOf b1) + rssiLen (flagsOf b1))) (by omega)
    obtain ⟨hi, hhi⟩ := rd (o + 4 + (n.toNat + tsLen (flagsOf b1) + rssiLen (flagsOf b1)) + 1) (by omega)
    simp only [hcov, readCrc, hlo, hhi, Option.bind_eq_bind, Option.bind_some]
    split <;> exact ⟨_, rfl⟩
  · exact ⟨_, rfl⟩

/-! ## A pass -/

/-- Loading a pass establishes the canonical form of the buffer. -/
theorem loadPass_wf (buf : Bytes) (s : State) : Memory.wf (loadPass buf s) := rfl

theorem respond_wf {s : State} (h : Memory.wf s) (st : Status) (r : Result) : Memory.wf (respond s st r) := h

theorem applyIter_wf {s : State} (h : Memory.wf s) (r : IterResult) : Memory.wf (applyIter s r) := by
  simpa [Memory.wf] using h

theorem reset_wf : Memory.wf State.reset := rfl

/-- Whatever holds of a state and is kept by each iteration holds after the loop of DECODE (R143). -/
theorem decLoop_induct {P : Params} {φ : State → Prop}
    (hstep : ∀ s r, φ s → s.dec_phase = .scan → scanIter P s s.dec_off = some r → φ (applyIter s r)) :
    ∀ {n : Nat} {s t : State}, φ s → decLoop P n s = some t → φ t
  | 0, s, t, hs, h => by simp [decLoop] at h; exact h ▸ hs
  | n + 1, s, t, hs, h => by
    simp only [decLoop] at h
    split at h
    · rename_i hp
      simp only [iterate, Option.bind_eq_some_iff, Option.map_eq_some_iff] at h
      obtain ⟨u, ⟨r, hr, rfl⟩, h⟩ := h
      exact decLoop_induct hstep (hstep s r hs hp hr) h
    · simp at h; exact h ▸ hs

/-- DEC_STEP, case by case (R146, R147). -/
theorem decStepOp_next {P : Params} {s t : State} (h : decStepOp P s = .next t) :
    (s.dec_phase ≠ .scan ∧ t = respond s .ok .none) ∨
    (s.dec_phase = .scan ∧ ∃ r, scanIter P s s.dec_off = some r ∧
      t = respond (applyIter s r) .ok (.step (iterEvent r s.dec_off) r.frame)) := by
  simp only [decStepOp] at h
  split at h
  · rename_i hp
    split at h
    · rename_i r hr; exact .inr ⟨hp, r, hr, by simpa using h.symm⟩
    · simp at h
  · rename_i hp; exact .inl ⟨hp, by simpa using h.symm⟩

/-- DECODE, case by case (R143). -/
theorem decodeOp_next {P : Params} {buf : Bytes} {s t : State} (h : decodeOp P buf s = .next t) :
    (P.bufMax < buf.length ∧ t = respond s .refused .none) ∨
    (buf.length ≤ P.bufMax ∧ ∃ u, decLoop P buf.length (loadPass buf s) = some u ∧
      t = respond u .ok (.frames u.dec_out u.dec_events)) := by
  simp only [decodeOp] at h
  split at h
  · rename_i hp; exact .inl ⟨hp, by simpa using h.symm⟩
  · rename_i hp
    split at h
    · rename_i u hu; exact .inr ⟨by omega, u, hu, by simpa using h.symm⟩
    · simp at h

/-- DEC_START, case by case (R141). -/
theorem decStartOp_next {P : Params} {buf : Bytes} {s t : State} (h : decStartOp P buf s = .next t) :
    (P.bufMax < buf.length ∧ t = respond s .refused .none) ∨
    (buf.length ≤ P.bufMax ∧ t = respond (loadPass buf s) .ok .none) := by
  simp only [decStartOp] at h
  split at h
  · rename_i hp; exact .inl ⟨hp, by simpa using h.symm⟩
  · rename_i hp; exact .inr ⟨by omega, by simpa using h.symm⟩

/-- ENCODE completes only on a Frame value (R32), and writes no register (R120). -/
theorem encodeOp_next {P : Params} {f : Frame} {s t : State} (h : encodeOp P f s = .next t) :
    f.wf = true ∧ t = respond s .ok (.bytes (encodeFrame P f)) := by
  simp only [encodeOp] at h
  split at h
  · rename_i hw; exact ⟨hw, by simpa using h.symm⟩
  · simp at h

/-- Every completed operation keeps the canonical form of the input buffer. -/
theorem exec_keeps_memory_wf {i : Instr} {s t : State} (hs : Memory.wf s) (h : exec i s = .next t) : Memory.wf t := by
  cases i <;> simp only [exec] at h
  case crcInit => simp only [execCrcInit, Host.Outcome.next.injEq] at h; exact h ▸ hs
  case crcUpdate b => simp only [execCrcUpdate, Host.Outcome.next.injEq] at h; exact h ▸ hs
  case crcRead => simp only [execCrcRead, Host.Outcome.next.injEq] at h; exact h ▸ hs
  case crc16 bs => simp only [execCrc16, Host.Outcome.next.injEq] at h; exact h ▸ hs
  case encode f => obtain ⟨-, rfl⟩ := encodeOp_next h; exact hs
  case decStart buf => obtain ⟨-, rfl⟩ | ⟨-, rfl⟩ := decStartOp_next h <;> first | exact hs | rfl
  case decStep =>
    obtain ⟨-, rfl⟩ | ⟨-, r, -, rfl⟩ := decStepOp_next h
    · exact hs
    · exact respond_wf (applyIter_wf hs r) _ _
  case decode buf =>
    obtain ⟨-, rfl⟩ | ⟨-, u, hu, rfl⟩ := decodeOp_next h
    · exact hs
    · exact respond_wf (decLoop_induct (φ := fun s => Memory.wf s) (fun s r hs _ _ => applyIter_wf hs r) (loadPass_wf buf s) hu) _ _
  case decStatus => simp only [execDecStatus, Host.Outcome.next.injEq] at h; exact h ▸ hs

/-- Every step keeps the canonical form of the input buffer. -/
theorem step_keeps_memory_wf {s t : State} (hs : Memory.wf s) (h : step s = .next t) : Memory.wf t := by
  simp only [step] at h
  split at h
  · simp at h; exact h ▸ hs
  · simp at h; subst h; rfl
  · split at h
    · exact exec_keeps_memory_wf (s := takeInput s _) (t := t) (by exact hs) h
    · simp only [rejectRequest] at h
      split at h <;> simp at h
      subst h; exact hs

/-! ## Where a pass stands -/

theorem StandsAt.len {s : State} {pre rest : Bytes} (h : StandsAt s pre rest) : s.dec_len = s.dec_off + rest.length := by
  rw [h.len_eq, h.buffer, h.cursor, List.length_append]

theorem StandsAt.read {s : State} {pre rest : Bytes} (h : StandsAt s pre rest) (k : Nat) :
    bufRead s (s.dec_off + k) = rest[k]? := by
  rw [bufRead_of_wf h.len_eq, h.buffer, h.cursor, List.getElem?_append_right (by omega)]; simp

theorem StandsAt.slice {s : State} {pre rest : Bytes} (h : StandsAt s pre rest) (k n : Nat) (hk : k + n ≤ rest.length) :
    bufSlice s (s.dec_off + k) n = some ((rest.drop k).take n) := by
  rw [bufSlice_of_wf h.len_eq _ _ (by rw [h.buffer, h.cursor, List.length_append]; omega), h.buffer, h.cursor]
  rw [List.drop_append, List.drop_eq_nil_of_le (by omega)]; simp

end Sys2Proof.Machine
end

