-- ==== Sys2Proof/Laws/PerInstr.lean ====
section
/-! SUPPORT. A family of statements about each operation as syntax: the table row's word, given to the decoder with zero
operands, reads as an operation of the same row (spec/opcode_table.json). -/

namespace Sys2Proof.Laws.EncodeWords

/-- The command word of i's row decodes, and to an operation of the same code. -/
def Statement (i : Instr) : Prop := (decodeTableWord 8 (opCode i).toNat).map opCode = some (opCode i)

theorem crcInit : Statement .crcInit := by unfold Statement; decide
theorem crcUpdate (b : U8) : Statement (.crcUpdate b) := by unfold Statement; simp only [opCode]; decide
theorem crcRead : Statement .crcRead := by unfold Statement; decide
theorem crc16 (s : Bytes) : Statement (.crc16 s) := by unfold Statement; simp only [opCode]; decide
theorem encode (f : Frame) : Statement (.encode f) := by unfold Statement; simp only [opCode]; decide
theorem decStart (buf : Bytes) : Statement (.decStart buf) := by unfold Statement; simp only [opCode]; decide
theorem decStep : Statement .decStep := by unfold Statement; decide
theorem decode (buf : Bytes) : Statement (.decode buf) := by unfold Statement; simp only [opCode]; decide
theorem decStatus : Statement .decStatus := by unfold Statement; decide

end Sys2Proof.Laws.EncodeWords
end

