-- ==== Sys2Proof/Tests/Slice0.lean ====
section
/-! SUPPORT. Tests: well-formedness, decoding of words written out, single steps with the results of
spec/95_test_vectors.md, and a witness for the hypotheses of each obligation that has some. -/

namespace Sys2Proof.Tests

open Sys2Proof Sys2Proof.Machine

/-- Does an outcome give a next state that passes a check? -/
def okAnd (o : Host.Outcome State Fault Refusal) (check : State → Bool) : Bool :=
  match o with
  | .next t => check t
  | .fault _ => false
  | .refused _ => false

/-- A pass of the buffer pre ++ rest, its cursor at rest. -/
def pass (pre rest : Bytes) : State :=
  { State.reset with
    dec_phase := .scan, dec_buf := pre ++ rest, dec_len := (pre ++ rest).length, dec_off := pre.length }

theorem pass_stands (pre rest : Bytes) : StandsAt (pass pre rest) pre rest := ⟨rfl, rfl, rfl, rfl⟩

/-- The parameters that 95_test_vectors.md uses. -/
def vectorParams : Params := { bufMax := 64, offBits := 16, encTrailers := .emit, msgTable := defaultMsgTable }

/-- The same under OMIT. -/
def omitParams : Params := { vectorParams with encTrailers := .omitted }

/-- V-ENC-1's frame. -/
def enc1 : Frame := { flags := 0x8, endpoint := 0x2, message_id := 0x01, payload := [], timestamp := 0, rssi := 0 }

/-- V-ENC-4's frame. -/
def enc4 : Frame :=
  { flags := 0xE, endpoint := 0x2, message_id := 0x03, payload := [1, 2, 3], timestamp := 0x12345678, rssi := 0x40 }

/-- A frame that is no value of R32: 256 payload bytes. -/
def overlong : Frame := { enc1 with payload := List.replicate 256 0 }

/-! ## Well-formedness and decoding -/

theorem test_wellFormed_refuses_256_payload_bytes : (Instr.encode overlong).WellFormed = false := by decide +kernel
theorem test_wellFormed_allows_255_payload_bytes :
    (Instr.encode { enc1 with payload := List.replicate 255 0 }).WellFormed = true := by decide +kernel
theorem test_decode_refuses_256_payload_bytes :
    decode { op := 0x10, operand := .frame overlong } = .error .payloadTooLong := by decide +kernel
theorem test_decode_refuses_other_operand_record :
    decode { op := 0b00000010, operand := .none } = .error .operandMismatch := by decide

theorem test_word_crcInit : decode { op := 0b00000001, operand := .none } = .ok .crcInit := by decide
theorem test_word_crcUpdate : decode { op := 0b00000010, operand := .u8 0x82 } = .ok (.crcUpdate 0x82) := by decide
theorem test_word_crcRead : decode { op := 0b00000011, operand := .none } = .ok .crcRead := by decide
theorem test_word_crc16 : decode { op := 0b00000100, operand := .bytes [0x82, 1] } = .ok (.crc16 [0x82, 1]) := by decide
theorem test_word_encode : decode { op := 0b00010000, operand := .frame enc4 } = .ok (.encode enc4) := by decide
theorem test_word_decStart : decode { op := 0b00100000, operand := .bytes [0xA5] } = .ok (.decStart [0xA5]) := by decide
theorem test_word_decStep : decode { op := 0b00100001, operand := .none } = .ok .decStep := by decide
theorem test_word_decode : decode { op := 0b00100010, operand := .bytes [0xA5] } = .ok (.decode [0xA5]) := by decide
theorem test_word_decStatus : decode { op := 0b00100011, operand := .none } = .ok .decStatus := by decide
theorem test_word_next_to_a_code_is_illegal :
    decode { op := 0b00010001, operand := .none } = .error (.illegalOp 0x11) := by decide
theorem test_tableWord_runs_first : okAnd (step (State.reset.withFetchWord 8 0x03)) (fun t =>
    t.responses == [{ status := .ok, result := .crc16 0x0000 }] && t.port == []) = true := by decide +kernel

/-! ## One operation on a small state -/

/-- R103's example. -/
theorem test_crcInit : okAnd (exec .crcInit { State.reset with crc_reg := 0x1234 }) (fun t => t.crc_reg == 0xFFFF) = true := by
  decide +kernel
/-- V-CRC-3. -/
theorem test_crcUpdate : okAnd (exec (.crcUpdate 0x82) State.reset) (fun t => t.crc_reg == 0xA89D) = true := by
  decide +kernel
/-- V-CRC-7. -/
theorem test_crcUpdate_from_zero :
    okAnd (exec (.crcUpdate 0x01) { State.reset with crc_reg := 0 }) (fun t => t.crc_reg == 0x1189) = true := by
  decide +kernel
/-- R105's example, with V-CRC-6's register. -/
theorem test_crcRead : okAnd (exec .crcRead { State.reset with crc_reg := 0x99BF }) (fun t =>
    t.responses == [{ status := .ok, result := .crc16 0x6640 }] && t.crc_reg == 0x99BF) = true := by decide +kernel
/-- V-CRC-7 and V-CRC-6. -/
theorem test_crc16 : okAnd (exec (.crc16 [0x82, 0x01, 0x00]) { State.reset with crc_reg := 0x1234 }) (fun t =>
    t.responses == [{ status := .ok, result := .crc16 0x6640 }] && t.crc_reg == 0x99BF) = true := by decide +kernel
/-- V-ENC-4. -/
theorem test_encode : okAnd (exec (.encode enc4) State.reset) (fun t => t.responses ==
    [⟨.ok, .bytes [0xA5, 0xE2, 0x03, 0x03, 0x01, 0x02, 0x03, 0x78, 0x56, 0x34, 0x12, 0x40, 0xC0, 0xD1]⟩]) = true := by
  decide +kernel
/-- V-ENC-19. -/
theorem test_encode_omit : encodeFrame omitParams enc4 = [0xA5, 0xE2, 0x03, 0x03, 0x01, 0x02, 0x03, 0x3C, 0x1E] := by
  decide +kernel
/-- R141's example. -/
theorem test_decStart : okAnd (decStartOp vectorParams [0xA5, 0x82, 0x01, 0x00, 0x40, 0x66] State.reset) (fun t =>
    t.dec_phase == .scan && t.dec_off == 0 && t.dec_len == 6) = true := by decide
/-- V-DEC-30's refusal: a buffer longer than a P_BUF_MAX of 4. -/
theorem test_decStart_refused : okAnd (decStartOp { vectorParams with bufMax := 4 } [1, 2, 3, 4, 5] State.reset) (fun t =>
    t.responses == [{ status := .refused, result := .none }] && t.dec_phase == .idle) = true := by decide
/-- R146's example: radio-link 0x01 is in the table of every instance. -/
theorem test_decStep : okAnd (exec .decStep (pass [] [0xA5, 0x82, 0x01, 0x00, 0x40, 0x66])) (fun t =>
    t.dec_events == [{ code := .accept, offset := 0 }] && t.dec_phase == .done &&
      t.dec_out ==
        [{ flags := 0x8, endpoint := 0x2, message_id := 0x01, message_valid := true, payload := [], timestamp := 0,
           rssi := 0, crc := 0x6640 }]) = true := by decide +kernel
/-- V-DEC-4's first iteration. -/
theorem test_decStep_integrity :
    okAnd (exec .decStep (pass [] [0xA5, 0x81, 0x01, 0x00, 0x24, 0x88, 0xA5, 0x82, 0x01, 0x00, 0x40, 0x66])) (fun t =>
      t.dec_events == [{ code := .integrity, offset := 0 }] && t.dec_off == 6 && t.dec_out == []) = true := by
  decide +kernel
/-- V-DEC-18. -/
theorem test_decode : okAnd (decodeOp vectorParams [0xA5, 0xA5, 0x82, 0x01, 0x00, 0x40, 0x66] State.reset) (fun t =>
    t.dec_events == [{ code := .unknownEndpoint, offset := 0 }, { code := .accept, offset := 1 }] &&
      t.dec_phase == .done) = true := by decide +kernel
/-- V-DEC-16: a cut inside the CRC is TRUNCATED, not INTEGRITY. -/
theorem test_decode_cut : okAnd (decodeOp vectorParams [0xA5, 0x82, 0x01, 0x00, 0x40] State.reset) (fun t =>
    t.dec_events.map (fun e => e.code) == [.truncated, .framing, .framing, .framing, .framing]) = true := by
  decide +kernel
/-- R149's example. -/
theorem test_decStatus : okAnd (exec .decStatus (pass [] [0x00])) (fun t =>
    t.responses == [{ status := .ok, result := .status .scan 0 1 [] [] }]) = true := by decide

/-! ## Witnesses: the hypotheses of each obligation are met together

Where an obligation's hypothesis is only that an operation or a step completes, the tests above show that it does. -/

/-- Every buffer of at most one byte is within P_BUF_MAX, whatever its value. -/
theorem witness_DecStartLoadsPass :
    ([] : Bytes).length ≤ Config.params.bufMax ∧ ([0xA5] : Bytes).length ≤ Config.params.bufMax :=
  ⟨Nat.zero_le _, Nat.le_add_left 1 Config.bufMaxLessOne⟩

/-- The longest buffer within P_BUF_MAX. -/
theorem witness_DecodeScansWholeBuffer :
    (List.replicate Config.params.bufMax (0xA5 : U8)).length ≤ Config.params.bufMax := by
  rw [List.length_replicate]

theorem witness_DecodeIsStartThenSteps : ([0xA5] : Bytes).length ≤ Config.params.bufMax :=
  witness_DecStartLoadsPass.2

/-- The shortest buffer over P_BUF_MAX. -/
theorem witness_OverlongBufferIsRefused :
    Config.params.bufMax < (List.replicate (Config.params.bufMax + 1) (0 : U8)).length := by
  rw [List.length_replicate]; exact Nat.lt_succ_self _

theorem witness_ResetInputRestoresRegisters :
    ({ pass [] [0xA5] with port := [.reset] } : State).port = .reset :: [] := rfl

theorem witness_StepRunsDecodedOperation :
    (State.reset.withFetchWord 8 0x01).port = .op { op := 0x01, operand := .none } :: [] ∧
      decode { op := 0x01, operand := .none } = .ok .crcInit := by decide

/-- The ends of the four ranges of R72. -/
theorem witness_IllegalCodeAnswered :
    ∀ op ∈ ([0x00, 0x05, 0x0F, 0x11, 0x1F, 0x24, 0xFF] : List U8),
      (op.toNat = 0x00 ∨ (0x05 ≤ op.toNat ∧ op.toNat ≤ 0x0F) ∨ (0x11 ≤ op.toNat ∧ op.toNat ≤ 0x1F) ∨ 0x24 ≤ op.toNat) := by
  decide

theorem witness_IdlePortChangesNothing : State.reset.port = [] := rfl

/-- V-CRC-3's trace is such a register sequence. -/
theorem witness_CrcUpdateShiftsOneByte :
    let r : Nat → U16 := fun i =>
      ([0xFFFF, 0xFBF7, 0x7DFB, 0xBAF5, 0xD972, 0x6CB9, 0xB254, 0x592A, 0xA89D] : List U16).getD i 0
    r 0 = State.reset.crc_reg ∧
      ∀ i, i < 8 → r (i + 1) =
        if (0x82 : U8).getLsbD i ≠ (r i).getLsbD 0 then (r i >>> 1) ^^^ 0x8408 else r i >>> 1 := by
  decide

theorem witness_CrcDetectsShortBursts :
    ([0x00, 0x01] : Bytes).length = ([0x80, 0x80] : Bytes).length ∧ ([0x00, 0x01] : Bytes) ≠ [0x80, 0x80] ∧
      ∀ i, (([0x00, 0x01] : Bytes).flatMap bitsOfByte)[i]? ≠ (([0x80, 0x80] : Bytes).flatMap bitsOfByte)[i]? →
        7 ≤ i ∧ i < 7 + 16 := by
  have inside : ∀ i, i < 16 →
      (([0x00, 0x01] : Bytes).flatMap bitsOfByte)[i]? ≠ (([0x80, 0x80] : Bytes).flatMap bitsOfByte)[i]? →
        7 ≤ i ∧ i < 7 + 16 := by decide +kernel
  refine ⟨rfl, by decide, fun i h => ?_⟩
  by_cases hi : i < 16
  · exact inside i hi h
  · have l1 : (([0x00, 0x01] : Bytes).flatMap bitsOfByte).length = 16 := rfl
    have l2 : (([0x80, 0x80] : Bytes).flatMap bitsOfByte).length = 16 := rfl
    exact absurd (by rw [List.getElem?_eq_none (by omega), List.getElem?_eq_none (by omega)]) h

theorem witness_EncodeReturnsWireBytes :
    enc4.payload.length ≤ 255 ∧ omitParams.encTrailers = .omitted ∧ vectorParams.encTrailers = .emit := by decide

theorem witness_EncodedLength : (List.replicate 255 (0 : U8)).length ≤ 255 := by decide +kernel

theorem witness_OverlongPayloadIsRefused : 255 < overlong.payload.length := by decide +kernel

theorem witness_DecStepOutsidePassIsNoOp :
    State.reset.dec_phase ≠ .scan ∧ ({ State.reset with dec_phase := .done } : State).dec_phase ≠ .scan := by decide

theorem witness_FramingAdvancesByOne :
    StandsAt (pass [0xA5] [0x00, 0xFF, 0xA5]) [0xA5] ([0x00, 0xFF] ++ [0xA5]) ∧ (0x00 : U8) ≠ 0xA5 ∧
      ∀ b ∈ ([0x00, 0xFF] : Bytes), b ≠ 0xA5 :=
  ⟨pass_stands _ _, by decide, by decide⟩

/-- The three clauses: SOF last; one byte of the header missing; one byte of the claimed frame missing (V-DEC-16). -/
theorem witness_TruncatedAdvancesByOne :
    StandsAt (pass [0x00] [0xA5]) [0x00] [0xA5] ∧
    (StandsAt (pass [] [0xA5, 0x82, 0x01]) [] (0xA5 :: 0x82 :: [0x01]) ∧ endpointOk 0x82 ∧ ([0x01] : Bytes).length < 2) ∧
    (StandsAt (pass [] [0xA5, 0x82, 0x01, 0x00, 0x40]) [] (0xA5 :: 0x82 :: 0x01 :: 0x00 :: [0x40]) ∧ endpointOk 0x82 ∧
      ([0x40] : Bytes).length < (0x00 : U8).toNat + trailerBytes 0x82) :=
  ⟨pass_stands _ _, ⟨pass_stands _ _, by unfold endpointOk; decide, by decide⟩, pass_stands _ _,
    by unfold endpointOk; decide, by decide⟩

/-- The two invalid nibbles next to the valid ones. -/
theorem witness_UnknownEndpointAdvancesByOne :
    (StandsAt (pass [] [0xA5, 0x80]) [] (0xA5 :: 0x80 :: []) ∧ ¬ endpointOk 0x80) ∧
    (StandsAt (pass [] [0xA5, 0x85, 0x01]) [] (0xA5 :: 0x85 :: [0x01]) ∧ ¬ endpointOk 0x85) :=
  ⟨⟨pass_stands _ _, by unfold endpointOk; decide⟩, pass_stands _ _, by unfold endpointOk; decide⟩

/-- V-DEC-4's frame. -/
theorem witness_IntegritySkipsClaimedLength :
    StandsAt (pass [] [0xA5, 0x81, 0x01, 0x00, 0x24, 0x88]) [] (0xA5 :: 0x81 :: 0x01 :: 0x00 :: ([] ++ [0x24, 0x88] ++ [])) ∧
      endpointOk 0x81 ∧ (0x81 : U8).getLsbD 7 = true ∧
      ([] : Bytes).length + 2 = (0x00 : U8).toNat + trailerBytes 0x81 ∧
      ([0x24, 0x88] : Bytes) ≠ LE16 (Sys2Proof.Machine.crc16 ([0x81, 0x01, 0x00] ++ [])) :=
  ⟨pass_stands _ _, by unfold endpointOk; decide, by decide, by decide, by decide +kernel⟩

/-- V-ENC-4's bytes and V-ENC-11's: every trailer, and none. -/
theorem witness_WholeFrameIsAccepted :
    (let trailers : Bytes := LE32 0x12345678 ++ [0x40]
     StandsAt (pass [] (0xA5 :: 0xE2 :: 0x03 :: 0x03 :: ([1, 2, 3] ++ trailers ++ LE16 0xD1C0 ++ []))) []
        (0xA5 :: 0xE2 :: 0x03 :: 0x03 :: ([1, 2, 3] ++ trailers ++ LE16 0xD1C0 ++ [])) ∧
      endpointOk 0xE2 ∧ ([1, 2, 3] : Bytes).length = (0x03 : U8).toNat ∧ (0xE2 : U8).getLsbD 5 = true ∧
      (0xE2 : U8).getLsbD 6 = true ∧ (0xE2 : U8).getLsbD 7 = true ∧
      (0xD1C0 : U16) = Sys2Proof.Machine.crc16 ([0xE2, 0x03, 0x03] ++ [1, 2, 3] ++ trailers)) ∧
    (StandsAt (pass [] [0xA5, 0x02, 0x01, 0x00]) [] (0xA5 :: 0x02 :: 0x01 :: 0x00 :: ([] ++ [] ++ [] ++ [])) ∧
      endpointOk 0x02 ∧ (0x02 : U8).getLsbD 5 = false ∧ (0x02 : U8).getLsbD 6 = false ∧ (0x02 : U8).getLsbD 7 = false) :=
  ⟨⟨pass_stands _ _, by unfold endpointOk; decide, by decide, by decide, by decide, by decide, by decide +kernel⟩,
    pass_stands _ _, by unfold endpointOk; decide, by decide, by decide, by decide⟩

theorem witness_DecStepAdvancesWithinBuffer :
    (pass [] [0xA5]).dec_phase = .scan ∧ Memory.wf (pass [] [0xA5]) ∧ (pass [] [0xA5]).dec_off < (pass [] [0xA5]).dec_len := by
  decide

theorem witness_PhaseTransitions :
    (∃ t, exec .decStep (pass [] [0x00]) = .next t) ∧
      ∃ t, step { pass [] [0x00] with port := [.reset] } = .next t := ⟨⟨_, rfl⟩, _, rfl⟩

/-- Under EMIT with every trailer, and under OMIT with and without them. -/
theorem witness_DecodeOfEncodeRoundTrip :
    Decodable enc4 ∧ (encodeFrame vectorParams enc4).length ≤ vectorParams.bufMax ∧ vectorParams.encTrailers = .emit ∧
      (encodeFrame omitParams enc4).length ≤ omitParams.bufMax ∧ TS enc4.flags = true ∧
      Decodable enc1 ∧ (encodeFrame omitParams enc1).length ≤ omitParams.bufMax ∧ TS enc1.flags = false ∧
      RS enc1.flags = false :=
  ⟨⟨by decide, by decide⟩, by decide +kernel, rfl, by decide +kernel, by decide, ⟨by decide, by decide⟩, by decide +kernel,
    by decide, by decide⟩

/-- A frame of endpoint 0x4 without trailers. -/
theorem witness_AcceptedBytesAreAnEncoding :
    Memory.wf (pass [] [0xA5, 0x04, 0x00, 0x00]) ∧ (pass [] [0xA5, 0x04, 0x00, 0x00]).dec_phase = .scan ∧
      okAnd (exec .decStep (pass [] [0xA5, 0x04, 0x00, 0x00])) (fun t => t.dec_out == (pass [] []).dec_out ++
        [{ flags := 0, endpoint := 0x4, message_id := 0, message_valid := false, payload := [], timestamp := 0, rssi := 0,
           crc := 0 }]) = true := by
  decide +kernel

theorem witness_ConcatenatedFramesDecodeInOrder :
    vectorParams.encTrailers = .emit ∧ Decodable enc1 ∧ Decodable enc4 ∧
      (encodeFrame vectorParams enc1 ++ encodeFrame vectorParams enc4).length ≤ vectorParams.bufMax :=
  ⟨rfl, ⟨by decide, by decide⟩, ⟨by decide, by decide⟩, by decide +kernel⟩

theorem witness_NoiseBetweenFramesLosesNone :
    let parts : List (Bytes × Frame) := [([0x00, 0xFF], enc1), ([], enc4)]
    vectorParams.encTrailers = .emit ∧ (∀ p ∈ parts, (∀ b ∈ p.1, b ≠ 0xA5) ∧ p.2.wf = true ∧ validEndpoint p.2.endpoint = true) ∧
      (∀ b ∈ ([0x07] : Bytes), b ≠ 0xA5) ∧
      ((parts.flatMap fun (p : Bytes × Frame) => p.1 ++ encodeFrame vectorParams p.2) ++ [0x07]).length ≤ vectorParams.bufMax := by
  decide +kernel

/-- A changed CRC byte, and a flags/endpoint byte changed from endpoint 0x2 to 0x1. -/
theorem witness_OneByteCorruptionIsDetected :
    Decodable enc1 ∧ CR enc1.flags = true ∧ (encodeFrame Config.params enc1).length = 6 ∧
      (encodeFrame Config.params enc1)[5]? ≠ some 0x67 ∧
      StandsAt (pass [] ((encodeFrame Config.params enc1).set 5 0x67 ++ [])) [] ((encodeFrame Config.params enc1).set 5 0x67 ++ []) ∧
      (encodeFrame Config.params enc1)[1]? ≠ some 0x81 ∧ endpointOk 0x81 ∧
      claimedLen (flagsOf 0x81) enc1.payload.length = claimedLen enc1.flags enc1.payload.length :=
  ⟨⟨by decide, by decide⟩, by decide, by decide +kernel, by decide +kernel, pass_stands _ _, by decide +kernel,
    by unfold endpointOk; decide, by decide⟩

/-- Two message tables: the default, and the empty one. -/
theorem witness_MessageTableOnlyDecidesValidity :
    vectorParams.bufMax = ({ vectorParams with msgTable := fun _ _ => false } : Params).bufMax ∧
      ([0xA5, 0x82, 0x01, 0x00, 0x40, 0x66] : Bytes).length ≤ vectorParams.bufMax := by decide

theorem witness_ReservedFlagHasNoEffect :
    StandsAt (pass [] [0xA5, 0x13, 0x10, 0x01, 0x00]) [] (0xA5 :: 0x13 :: [0x10, 0x01, 0x00]) ∧
      (0x13 : U8).getLsbD 7 = false := ⟨pass_stands _ _, by decide⟩

theorem witness_NoStateCarriesBetweenPasses :
    ([] : Bytes).length ≤ Config.params.bufMax ∧ ∃ t t', exec (.decStart []) State.reset = .next t ∧
      exec (.decStart []) (pass [] [0xA5]) = .next t' := ⟨Nat.zero_le _, _, _, rfl, rfl⟩

theorem witness_EncoderAndDecoderIgnoreCrcReg : ∃ t, exec .decStep (pass [] [0x00]) = .next t := ⟨_, rfl⟩

theorem witness_CrcEngineIgnoresDecoder :
    State.reset.crc_reg = (pass [] [0xA5]).crc_reg ∧ ∃ t t', exec (.crcUpdate 0x82) State.reset = .next t ∧
      exec (.crcUpdate 0x82) (pass [] [0xA5]) = .next t' := ⟨rfl, _, _, rfl, rfl⟩

theorem witness_RejectedOperationChangesNoRegister :
    ∃ t, step { State.reset with port := [.op { op := 0x24, operand := .none }] } = .next t ∧
      t.responses = State.reset.responses ++ [{ status := .illegalOp, result := .none }] := ⟨_, rfl, rfl⟩

/-- A state that meets R39 with a frame and an event in its lists, and a step from it. -/
def kept : State :=
  { State.reset with
    dec_phase := .done, dec_buf := [0xA5, 0x04, 0x00, 0x00], dec_len := 4, dec_off := 4
    dec_out :=
      [{ flags := 0, endpoint := 0x4, message_id := 0, message_valid := false, payload := [], timestamp := 0, rssi := 0,
         crc := 0 }]
    dec_events := [{ code := .acceptUnknownMsg, offset := 0 }] }

theorem witness_StepKeepsPassLog : PassLog kept ∧ ∃ t, step kept = .next t :=
  ⟨⟨by decide, by decide, by decide⟩, _, rfl⟩

theorem witness_StepKeepsFramesLegal : (∀ d ∈ kept.dec_out, LegalFrame Config.params d) ∧ ∃ t, step kept = .next t := by
  refine ⟨fun d hd => ?_, _, rfl⟩
  rw [List.mem_singleton.mp hd]
  exact ⟨by decide, by decide, fun _ => rfl, fun _ => rfl, fun _ => rfl, rfl⟩

/-- A one-byte pass, whatever P_BUF_MAX is, with an operation waiting. -/
theorem witness_StepKeepsDecoderInvariant :
    Inv Config.params { pass [] [0xA5] with port := [.op { op := 0x21, operand := .none }] } ∧
      ∃ t, step { pass [] [0xA5] with port := [.op { op := 0x21, operand := .none }] } = .next t :=
  ⟨⟨rfl, Nat.le_add_left 1 Config.bufMaxLessOne, by decide, by decide, by decide, by decide, by decide, by decide⟩, _, rfl⟩

theorem witness_NoStepStopsOnPresentableInput :
    Inv Config.params { pass [] [0xA5] with port := [.op { op := 0x21, operand := .none }] } ∧
      Presentable (.op { op := 0x21, operand := .none }) :=
  ⟨witness_StepKeepsDecoderInvariant.1, fun _ h => nomatch h⟩

theorem witness_EveryHostProgramCompletes :
    ∀ x ∈ ([.op { op := 0x22, operand := .bytes [0xA5] }, .reset, .op { op := 0xFF, operand := .none }] : List HostInput),
      Presentable x := by
  intro x hx
  simp only [List.mem_cons, List.not_mem_nil, or_false] at hx
  rcases hx with rfl | rfl | rfl
  · intro e h; exact nomatch h
  · trivial
  · intro e h; exact (Except.error.inj h).symm

theorem witness_CursorFitsItsRegister : Inv Config.params State.reset :=
  ⟨rfl, Nat.zero_le _, by decide, by decide, by decide, by decide, by decide, by decide⟩

end Sys2Proof.Tests
end

section
/-! PROOFS for spec/00_scope.md: what R8 requires of the parameters (O11) and why the cursor register is wide enough
(O56). -/

namespace Sys2Proof

/-- P_MSG_TABLE has radio-link 0x01 whatever its OPEN part says (R87). -/
@[simp] theorem Config.msgTable_radioLink_one : Config.msgTable .radioLink 0x01 = true := rfl

/-- The width R8 requires alone, before the spare bits of log 8, already holds P_BUF_MAX + 266. -/
theorem Config.bufMax_add_lt_two_pow_offBits : Config.bufMax + 266 < 2 ^ Config.offBits :=
  calc Config.bufMax + 266
      < 2 ^ (Nat.log2 (Config.bufMax + 266) + 1) := Nat.lt_log2_self
    _ ≤ 2 ^ Config.offBits := Nat.pow_le_pow_right Nat.two_pos (Nat.le_add_right _ Config.spareOffBits)

@[simp] theorem Config.params_bufMax : Config.params.bufMax = Config.bufMax := rfl
@[simp] theorem Config.params_offBits : Config.params.offBits = Config.offBits := rfl

theorem Config.bufMax_pos : 1 ≤ Config.bufMax := Nat.le_add_left 1 Config.bufMaxLessOne

theorem Config.params_legal : Config.params.Legal where
  bufMax_pos := Config.bufMax_pos
  cursor_fits := by
    rw [Config.params_bufMax, Config.params_offBits]; exact Config.bufMax_add_lt_two_pow_offBits
  wmbus_request := Config.msgTable_radioLink_one

namespace Machine

theorem tsLen_le (flags : U4) : tsLen flags ≤ 4 := by
  unfold tsLen; split <;> omega

theorem rssiLen_le (flags : U4) : rssiLen flags ≤ 1 := by
  unfold rssiLen; split <;> omega

theorem crcLen_le (flags : U4) : crcLen flags ≤ 2 := by
  unfold crcLen; split <;> omega

/-- 266 is the longest frame: a header, 255 payload bytes and all three trailers (R8, R78). -/
theorem claimedLen_le (flags : U4) (n : U8) : claimedLen flags n.toNat ≤ 266 := by
  have hn : n.toNat < 256 := n.isLt
  have ht := tsLen_le flags
  have hr := rssiLen_le flags
  have hc := crcLen_le flags
  simp only [claimedLen, HDR_LEN]
  omega

theorem Inv.off_le_bufMax {P : Params} {s : State} (h : Inv P s) : s.dec_off ≤ P.bufMax :=
  h.off_le.trans h.len_le

/-- For any legal parameters, not only this instance's. -/
theorem off_add_claimedLen_lt {P : Params} {s : State} (hP : P.Legal) (h : Inv P s) (flags : U4) (n : U8) :
    s.dec_off + claimedLen flags n.toNat < 2 ^ P.offBits :=
  calc s.dec_off + claimedLen flags n.toNat
      ≤ P.bufMax + 266 := Nat.add_le_add h.off_le_bufMax (claimedLen_le flags n)
    _ < 2 ^ P.offBits := hP.cursor_fits

/-- Settles O56: the cursor is at most P_BUF_MAX (R39), the claimed length at most 266 (R78), and R8 makes room for
both. -/
theorem cursorFitsItsRegister : Obligations.CursorFitsItsRegister :=
  fun _ flags n h => off_add_claimedLen_lt Config.params_legal h flags n

/-- Settles O11: the OPEN values are opaque, so legality is shown from the form R8 gives each of them. -/
theorem parametersAreLegal : Obligations.ParametersAreLegal :=
  ⟨Config.params_legal, rfl⟩

end Machine
end Sys2Proof
end

section
/-! PROOFS for spec/10_state.md, the layer below the obligations: what the decoder of requests accepts, what an operation
and a step can do, each said once. -/

namespace Sys2Proof

/-! ## Requests (30_encoding.md R70 to R73) -/

theorem Frame.wf_iff {f : Frame} : f.wf = true ↔ f.payload.length ≤ 255 := by simp [Frame.wf]

theorem takeNone_eq_ok {i j : Instr} {x : Operand} : takeNone i x = .ok j ↔ x = .none ∧ i = j := by
  cases x <;> simp [takeNone]

theorem takeU8_eq_ok {k : U8 → Instr} {j : Instr} {x : Operand} : takeU8 k x = .ok j ↔ ∃ b, x = .u8 b ∧ k b = j := by
  cases x <;> simp [takeU8]

theorem takeBytes_eq_ok {k : Bytes → Instr} {j : Instr} {x : Operand} :
    takeBytes k x = .ok j ↔ ∃ s, x = .bytes s ∧ k s = j := by
  cases x <;> simp [takeBytes]

theorem takeFrame_eq_ok {k : Frame → Instr} {j : Instr} {x : Operand} :
    takeFrame k x = .ok j ↔ ∃ f, x = .frame f ∧ f.wf = true ∧ k f = j := by
  cases x with
  | frame f => by_cases hf : f.wf = true <;> simp [takeFrame, hf]
  | _ => simp [takeFrame]

/-! An assigned code is never answered as an illegal one, whatever its operand record. -/

theorem takeNone_ne_illegalOp (i : Instr) (x : Operand) (op : U8) : takeNone i x ≠ .error (.illegalOp op) := by
  cases x <;> simp [takeNone]

theorem takeU8_ne_illegalOp (k : U8 → Instr) (x : Operand) (op : U8) : takeU8 k x ≠ .error (.illegalOp op) := by
  cases x <;> simp [takeU8]

theorem takeBytes_ne_illegalOp (k : Bytes → Instr) (x : Operand) (op : U8) : takeBytes k x ≠ .error (.illegalOp op) := by
  cases x <;> simp [takeBytes]

theorem takeFrame_ne_illegalOp (k : Frame → Instr) (x : Operand) (op : U8) : takeFrame k x ≠ .error (.illegalOp op) := by
  cases x with
  | frame f => by_cases hf : f.wf = true <;> simp [takeFrame, hf]
  | _ => simp [takeFrame]

theorem decode_illegalOp {r : Request} {op : U8} (h : decode r = .error (.illegalOp op)) : op = r.op := by
  simp only [decode] at h
  split_ifs at h
  case neg => simpa using h.symm
  all_goals simp [takeNone_ne_illegalOp, takeU8_ne_illegalOp, takeBytes_ne_illegalOp, takeFrame_ne_illegalOp] at h

/-- The decoder gives an operation only for the request that issues it, and only a well-formed one. -/
theorem decode_ok {r : Request} {i : Instr} (h : decode r = .ok i) : i.WellFormed = true ∧ r = encode i := by
  obtain ⟨op, x⟩ := r
  simp only [decode] at h
  split_ifs at h with h1 h2 h3 h4 h10 h20 h21 h22 h23
  · obtain ⟨rfl, rfl⟩ := takeNone_eq_ok.mp h; exact ⟨rfl, by rw [h1]; rfl⟩
  · obtain ⟨b, rfl, rfl⟩ := takeU8_eq_ok.mp h; exact ⟨rfl, by rw [h2]; rfl⟩
  · obtain ⟨rfl, rfl⟩ := takeNone_eq_ok.mp h; exact ⟨rfl, by rw [h3]; rfl⟩
  · obtain ⟨s, rfl, rfl⟩ := takeBytes_eq_ok.mp h; exact ⟨rfl, by rw [h4]; rfl⟩
  · obtain ⟨f, rfl, hf, rfl⟩ := takeFrame_eq_ok.mp h; exact ⟨hf, by rw [h10]; rfl⟩
  · obtain ⟨s, rfl, rfl⟩ := takeBytes_eq_ok.mp h; exact ⟨rfl, by rw [h20]; rfl⟩
  · obtain ⟨rfl, rfl⟩ := takeNone_eq_ok.mp h; exact ⟨rfl, by rw [h21]; rfl⟩
  · obtain ⟨s, rfl, rfl⟩ := takeBytes_eq_ok.mp h; exact ⟨rfl, by rw [h22]; rfl⟩
  · obtain ⟨rfl, rfl⟩ := takeNone_eq_ok.mp h; exact ⟨rfl, by rw [h23]; rfl⟩

theorem decode_encode_frame (f : Frame) :
    decode { op := 0x10, operand := .frame f } = if f.wf then .ok (.encode f) else .error .payloadTooLong := rfl

/-- Every well-formed operation has a request that the decoder reads back. -/
theorem decode_encode {i : Instr} (h : i.WellFormed = true) : decode (encode i) = .ok i := by
  cases i with
  | encode f => exact (decode_encode_frame f).trans (if_pos h)
  | _ => rfl

namespace Machine

/-! ## The shared operations, branch by branch: the converses of `encodeOp_next` to `decodeOp_next` -/

theorem encodeOp_of_wf {f : Frame} (h : f.wf = true) (P : Params) (s : State) :
    encodeOp P f s = .next (respond s .ok (.bytes (encodeFrame P f))) := if_pos h

theorem encodeOp_of_overlong {f : Frame} (h : 255 < f.payload.length) (P : Params) (s : State) :
    encodeOp P f s = .refused .payloadTooLong := if_neg (mt Frame.wf_iff.mp h.not_ge)

theorem decStartOp_of_lt {P : Params} {buf : Bytes} (h : P.bufMax < buf.length) (s : State) :
    decStartOp P buf s = .next (respond s .refused .none) := if_pos h

theorem decStartOp_of_le {P : Params} {buf : Bytes} (h : buf.length ≤ P.bufMax) (s : State) :
    decStartOp P buf s = .next (respond (loadPass buf s) .ok .none) := if_neg h.not_gt

theorem decStepOp_of_scan {P : Params} {s : State} {r : IterResult} (hp : s.dec_phase = .scan)
    (hr : scanIter P s s.dec_off = some r) :
    decStepOp P s = .next (respond (applyIter s r) .ok (.step (iterEvent r s.dec_off) r.frame)) := by
  simp [decStepOp, hp, hr]

theorem decStepOp_of_ne_scan {P : Params} {s : State} (hp : s.dec_phase ≠ .scan) :
    decStepOp P s = .next (respond s .ok .none) := if_neg hp

theorem decodeOp_of_lt {P : Params} {buf : Bytes} (h : P.bufMax < buf.length) (s : State) :
    decodeOp P buf s = .next (respond s .refused .none) := if_pos h

theorem decodeOp_of_decLoop {P : Params} {buf : Bytes} {s t : State} (h : buf.length ≤ P.bufMax)
    (ht : decLoop P buf.length (loadPass buf s) = some t) :
    decodeOp P buf s = .next (respond t .ok (.frames t.dec_out t.dec_events)) := by
  simp [decodeOp, h.not_gt, ht]

/-! ## What an operation can do -/

/-- DEC_START or DECODE of a buffer over P_BUF_MAX: the operations that are REFUSED (R141, R143). -/
def Overlong (i : Instr) : Prop :=
  ∃ buf, Config.params.bufMax < buf.length ∧ (i = .decStart buf ∨ i = .decode buf)

/-- `OpEffect i s u`: operation i, answering OK, takes the registers of s to those of u; the response comes on top. -/
inductive OpEffect : Instr → State → State → Prop where
  | crcInit (s : State) : OpEffect .crcInit s { s with crc_reg := CRC_START }
  | crcUpdate (b : U8) (s : State) : OpEffect (.crcUpdate b) s { s with crc_reg := crcByte s.crc_reg b }
  | crcRead (s : State) : OpEffect .crcRead s s
  | crc16 (bs : Bytes) (s : State) : OpEffect (.crc16 bs) s { s with crc_reg := crcBytes CRC_START bs }
  | encode (f : Frame) (s : State) : OpEffect (.encode f) s s
  | decStart (buf : Bytes) (s : State) (h : buf.length ≤ Config.params.bufMax) :
      OpEffect (.decStart buf) s (loadPass buf s)
  | decStepOutside (s : State) (hp : s.dec_phase ≠ .scan) : OpEffect .decStep s s
  | decStep (s : State) (r : IterResult) (hp : s.dec_phase = .scan)
      (hr : scanIter Config.params s s.dec_off = some r) : OpEffect .decStep s (applyIter s r)
  | decode (buf : Bytes) (s u : State) (h : buf.length ≤ Config.params.bufMax)
      (hu : decLoop Config.params buf.length (loadPass buf s) = some u) : OpEffect (.decode buf) s u
  | decStatus (s : State) : OpEffect .decStatus s s

theorem OpEffect.not_overlong {i : Instr} {s u : State} (h : OpEffect i s u) : ¬ Overlong i := by
  rintro ⟨buf, hlt, rfl | rfl⟩ <;> cases h <;> omega

/-- An operation that completes is REFUSED and only answered, or is OK with its effect. -/
theorem exec_next {i : Instr} {s t : State} (h : exec i s = .next t) :
    (Overlong i ∧ t = respond s .refused .none) ∨ ∃ u res, OpEffect i s u ∧ t = respond u .ok res := by
  cases i with
  | crcInit => cases h; exact .inr ⟨_, _, .crcInit s, rfl⟩
  | crcUpdate b => cases h; exact .inr ⟨_, _, .crcUpdate b s, rfl⟩
  | crcRead => cases h; exact .inr ⟨_, _, .crcRead s, rfl⟩
  | crc16 bs => cases h; exact .inr ⟨_, _, .crc16 bs s, rfl⟩
  | encode f => obtain ⟨-, rfl⟩ := encodeOp_next h; exact .inr ⟨_, _, .encode f s, rfl⟩
  | decStart buf =>
    obtain ⟨hlt, rfl⟩ | ⟨hle, rfl⟩ := decStartOp_next h
    · exact .inl ⟨⟨buf, hlt, .inl rfl⟩, rfl⟩
    · exact .inr ⟨_, _, .decStart buf s hle, rfl⟩
  | decStep =>
    obtain ⟨hp, rfl⟩ | ⟨hp, r, hr, rfl⟩ := decStepOp_next h
    · exact .inr ⟨_, _, .decStepOutside s hp, rfl⟩
    · exact .inr ⟨_, _, .decStep s r hp hr, rfl⟩
  | decode buf =>
    obtain ⟨hlt, rfl⟩ | ⟨hle, u, hu, rfl⟩ := decodeOp_next h
    · exact .inl ⟨⟨buf, hlt, .inr rfl⟩, rfl⟩
    · exact .inr ⟨_, _, .decode buf s u hle hu, rfl⟩
  | decStatus => cases h; exact .inr ⟨_, _, .decStatus s, rfl⟩

/-! ## What a step can do -/

theorem step_next {s t : State} (h : step s = .next t) :
    (s.port = [] ∧ t = s) ∨
    (∃ rest, s.port = .reset :: rest ∧ t = resetInput (takeInput s rest)) ∨
    ∃ q rest, s.port = .op q :: rest ∧
      ((∃ i, decode q = .ok i ∧ exec i (takeInput s rest) = .next t) ∨
        (decode q = .error (.illegalOp q.op) ∧ t = respond (takeInput s rest) .illegalOp .none)) := by
  simp only [step] at h
  split at h
  next hport => cases h; exact .inl ⟨hport, rfl⟩
  next rest hport => cases h; exact .inr (.inl ⟨rest, hport, rfl⟩)
  next q rest hport =>
    refine .inr (.inr ⟨q, rest, hport, ?_⟩)
    split at h
    next i hi => exact .inl ⟨i, hi, h⟩
    next e he =>
      cases e with
      | illegalOp op => cases h; exact .inr ⟨decode_illegalOp he ▸ he, rfl⟩
      | operandMismatch => cases h
      | payloadTooLong => cases h

/-! ## Properties of the decoder's registers, packaged once: an invariant then has an iteration to look at and no more -/

/-- A property of the decoder's registers alone that holds after reset and of a loaded pass, and that an iteration
keeps. -/
structure DecoderInvariant (P : Params) (φ : State → Prop) : Prop where
  others : ∀ (s : State) (v : U16) (port : List HostInput) (responses : List Response), φ s →
    φ { s with crc_reg := v, port := port, responses := responses }
  reset : φ State.reset
  load : ∀ (buf : Bytes) (s : State), buf.length ≤ P.bufMax → φ (loadPass buf s)
  iter : ∀ (s : State) (r : IterResult), φ s → s.dec_phase = .scan → scanIter P s s.dec_off = some r →
    φ (applyIter s r)

theorem DecoderInvariant.respond {P : Params} {φ : State → Prop} (hφ : DecoderInvariant P φ) {s : State} (hs : φ s)
    (st : Status) (res : Result) : φ (Machine.respond s st res) := hφ.others s _ _ _ hs

theorem DecoderInvariant.takeInput {P : Params} {φ : State → Prop} (hφ : DecoderInvariant P φ) {s : State} (hs : φ s)
    (rest : List HostInput) : φ (Machine.takeInput s rest) := hφ.others s _ _ _ hs

theorem DecoderInvariant.opEffect {φ : State → Prop} (hφ : DecoderInvariant Config.params φ) {i : Instr} {s u : State}
    (hs : φ s) (h : OpEffect i s u) : φ u := by
  cases h with
  | crcInit | crcUpdate | crc16 => exact hφ.others s _ _ _ hs
  | crcRead | encode | decStepOutside | decStatus => exact hs
  | decStart buf _ hle => exact hφ.load buf s hle
  | decStep _ r hp hr => exact hφ.iter s r hs hp hr
  | decode buf _ _ hle hu => exact decLoop_induct hφ.iter (hφ.load buf s hle) hu

theorem DecoderInvariant.exec {φ : State → Prop} (hφ : DecoderInvariant Config.params φ) {i : Instr} {s t : State}
    (hs : φ s) (h : exec i s = .next t) : φ t := by
  obtain ⟨-, rfl⟩ | ⟨u, res, hu, rfl⟩ := exec_next h
  · exact hφ.respond hs _ _
  · exact hφ.respond (hφ.opEffect hs hu) _ _

theorem DecoderInvariant.step {φ : State → Prop} (hφ : DecoderInvariant Config.params φ) {s t : State} (hs : φ s)
    (h : step s = .next t) : φ t := by
  obtain ⟨-, rfl⟩ | ⟨rest, -, rfl⟩ | ⟨q, rest, -, ⟨i, -, hi⟩ | ⟨-, rfl⟩⟩ := step_next h
  · exact hs
  · exact hφ.others State.reset _ _ _ hφ.reset
  · exact hφ.exec (hφ.takeInput hs rest) hi
  · exact hφ.respond (hφ.takeInput hs rest) _ _

/-! ## What an iteration reports -/

/-- An iteration moves the cursor forward and not past the buffer (R144). -/
theorem scanIter_next {P : Params} {s : State} {o : Nat} {r : IterResult} (h : scanIter P s o = some r) :
    o < r.next ∧ r.next ≤ s.dec_len := by
  obtain ⟨ho, rfl | rfl | rfl | ⟨F, hF, hle, rfl | ⟨d, rfl, -⟩⟩⟩ := scanIter_cases h <;>
    simp only [dropped] <;> omega

/-- A frame is kept exactly for the event codes that keep one (R181), it is legal (R157), and message_valid decides
between the two (R153). -/
theorem scanIter_frame {P : Params} {s : State} {o : Nat} {r : IterResult} (h : scanIter P s o = some r) :
    (r.frame = none ∧ keepsFrame r.code = false) ∨
    ∃ d, r.frame = some d ∧ LegalFrame P d ∧ r.code = acceptCode d.message_valid := by
  obtain ⟨-, rfl | rfl | rfl | ⟨F, -, -, rfl | ⟨d, rfl, hd⟩⟩⟩ := scanIter_cases h
  case inr.inr.inr.inr => exact .inr ⟨d, rfl, hd, rfl⟩
  all_goals exact .inl ⟨rfl, rfl⟩

theorem scanIter_frame_legal {P : Params} {s : State} {o : Nat} {r : IterResult} {d : DecodedFrame}
    (h : scanIter P s o = some r) (hd : d ∈ r.frame) : LegalFrame P d := by
  obtain ⟨hnone, -⟩ | ⟨d', hsome, hlegal, -⟩ := scanIter_frame h
  · simp [hnone] at hd
  · cases hsome.symm.trans hd
    exact hlegal

@[simp] theorem keepsFrame_acceptCode (v : Bool) : keepsFrame (acceptCode v) = true := by cases v <;> rfl

@[simp] theorem acceptCode_beq_accept (v : Bool) : (acceptCode v == .accept) = v := by cases v <;> rfl

/-- The endpoint nibbles of R84, as R39 lists them. -/
theorem validEndpoint_iff {ep : U4} : validEndpoint ep = true ↔ ep = 0x1 ∨ ep = 0x2 ∨ ep = 0x3 ∨ ep = 0x4 := by
  revert ep; decide

end Machine
end Sys2Proof
end

section
/-! PROOFS for spec/10_state.md: the reset values (O1, O50), the invariants of R39, R28, R29 and R34 (O51, O52, O53),
which registers an operation writes and reads (R21: O46, O47, O48), and what is rejected (R183, U4: O49, O23). -/

namespace Sys2Proof.Machine

/-! ## Invariants -/

/-- R39 is a property of the decoder's registers that every iteration keeps: the cursor moves inside the buffer, one
event is added for at most one frame, and a kept frame is legal. -/
theorem inv_decoderInvariant (P : Params) : DecoderInvariant P (Inv P) where
  others _ _ _ _ h := { h with }
  reset :=
    { len_eq := rfl, len_le := Nat.zero_le _, off_le := Nat.zero_le _, scan_lt := nofun, done_eq := nofun
      idle_empty := fun _ => ⟨rfl, rfl, rfl, rfl⟩, out_le := Nat.zero_le _, out_endpoint := nofun }
  load buf s hle :=
    { len_eq := rfl, len_le := hle, off_le := Nat.zero_le _
      scan_lt := by cases buf <;> simp
      done_eq := by cases buf <;> simp
      idle_empty := by cases buf <;> simp
      out_le := Nat.zero_le _, out_endpoint := by simp }
  iter s r h hp hr := by
    obtain ⟨-, hnext⟩ := scanIter_next hr
    exact
      { len_eq := by simpa using h.len_eq
        len_le := by simpa using h.len_le
        off_le := by simpa using hnext
        scan_lt := by simpa [hp] using hnext.lt_of_ne
        done_eq := by simp [hp]
        idle_empty := by by_cases hend : r.next = s.dec_len <;> simp [hp, hend]
        out_le := by
          have hone : r.frame.toList.length ≤ 1 := by cases r.frame <;> simp
          simpa using Nat.add_le_add h.out_le hone
        out_endpoint := by
          intro d hd
          simp only [applyIter_dec_out, List.mem_append, Option.mem_toList] at hd
          obtain hd | hd := hd
          · exact h.out_endpoint d hd
          · exact validEndpoint_iff.mp (scanIter_frame_legal hr hd).endpoint_valid }

/-- Settles O51: a step touches the decoder's registers by a reset, a loaded pass or iterations only. -/
theorem stepKeepsDecoderInvariant : Obligations.StepKeepsDecoderInvariant :=
  fun _ _ hs h => (inv_decoderInvariant Config.params).step hs h

theorem passLog_applyIter {P : Params} {s : State} {r : IterResult} (h : PassLog s)
    (hr : scanIter P s s.dec_off = some r) : PassLog (applyIter s r) := by
  obtain ⟨hlt, -⟩ := scanIter_next hr
  constructor
  case rising =>
    simp only [applyIter_dec_events, List.pairwise_append]
    refine ⟨h.rising, List.pairwise_singleton _ _, fun a ha b hb => ?_⟩
    rw [List.mem_singleton.mp hb]
    exact h.behind a ha
  case behind =>
    intro e he
    simp only [applyIter_dec_events, List.mem_append, List.mem_singleton] at he
    obtain he | rfl := he
    · exact (h.behind e he).trans hlt
    · exact hlt
  case frames =>
    simp only [applyIter_dec_out, applyIter_dec_events, List.map_append, List.filter_append, h.frames]
    obtain ⟨hn, hk⟩ | ⟨d, hd, -, hc⟩ := scanIter_frame hr
    · simp [iterEvent, hn, hk]
    · simp [iterEvent, hd, hc]

/-- The new event stands at the old cursor, which all earlier events are behind and which the cursor leaves. -/
theorem passLog_decoderInvariant (P : Params) : DecoderInvariant P PassLog where
  others _ _ _ _ h := { h with }
  reset := ⟨.nil, nofun, rfl⟩
  load _ _ _ := ⟨.nil, nofun, rfl⟩
  iter _ _ h _ hr := passLog_applyIter h hr

/-- Settles O52, by the same induction over a step's iterations as O51. -/
theorem stepKeepsPassLog : Obligations.StepKeepsPassLog :=
  fun _ _ hs h => (passLog_decoderInvariant Config.params).step hs h

theorem framesLegal_decoderInvariant (P : Params) :
    DecoderInvariant P fun s => ∀ d ∈ s.dec_out, LegalFrame P d where
  others _ _ _ _ h := h
  reset := nofun
  load _ _ _ := nofun
  iter s r h _ hr d hd := by
    simp only [applyIter_dec_out, List.mem_append, Option.mem_toList] at hd
    obtain hd | hd := hd
    · exact h d hd
    · exact scanIter_frame_legal hr hd

/-- Settles O53: every frame an iteration keeps is legal (R157). -/
theorem stepKeepsFramesLegal : Obligations.StepKeepsFramesLegal :=
  fun _ _ hs h => (framesLegal_decoderInvariant Config.params).step hs h

/-- Settles O50: the base case of the three invariants. -/
theorem resetMeetsInvariants : Obligations.ResetMeetsInvariants :=
  ⟨(inv_decoderInvariant _).reset, (passLog_decoderInvariant Config.params).reset, (framesLegal_decoderInvariant _).reset⟩

/-- Settles O1: the values of R38 are those of `State.reset`. -/
theorem resetRegisterValues : Obligations.ResetRegisterValues := ⟨rfl, rfl, rfl, rfl, rfl, rfl, rfl⟩

/-! ## What an operation writes (the W column of R21) -/

/-- The fields that no iteration, and so no DECODE, writes. -/
theorem decLoop_frame {P : Params} {n : Nat} {s t : State} (h : decLoop P n s = some t) :
    t.crc_reg = s.crc_reg ∧ t.port = s.port ∧ t.responses = s.responses :=
  decLoop_induct (φ := fun u => u.crc_reg = s.crc_reg ∧ u.port = s.port ∧ u.responses = s.responses)
    (fun u r hu _ _ => by simpa using hu) ⟨rfl, rfl, rfl⟩ h

theorem OpEffect.crc_reg {i : Instr} {s u : State} (h : OpEffect i s u)
    (hi : i ≠ .crcInit ∧ (∀ b, i ≠ .crcUpdate b) ∧ ∀ bs, i ≠ .crc16 bs) : u.crc_reg = s.crc_reg := by
  obtain ⟨hinit, hupdate, hcrc⟩ := hi
  cases h with
  | crcInit => exact absurd rfl hinit
  | crcUpdate b => exact absurd rfl (hupdate b)
  | crc16 bs => exact absurd rfl (hcrc bs)
  | crcRead | encode | decStart | decStepOutside | decStatus => rfl
  | decStep _ r => exact applyIter_crc_reg s r
  | decode buf _ _ _ hu =>
    obtain ⟨hcrc, -⟩ := decLoop_frame hu
    exact hcrc

theorem OpEffect.buffer {i : Instr} {s u : State} (h : OpEffect i s u)
    (hi : (∀ b, i ≠ .decStart b) ∧ ∀ b, i ≠ .decode b) : u.dec_buf = s.dec_buf ∧ u.dec_len = s.dec_len := by
  obtain ⟨hstart, hdecode⟩ := hi
  cases h with
  | crcInit | crcUpdate | crcRead | crc16 | encode | decStepOutside | decStatus => exact ⟨rfl, rfl⟩
  | decStart buf => exact absurd rfl (hstart buf)
  | decStep _ r => exact ⟨applyIter_dec_buf s r, applyIter_dec_len s r⟩
  | decode buf => exact absurd rfl (hdecode buf)

theorem OpEffect.pass {i : Instr} {s u : State} (h : OpEffect i s u)
    (hi : (∀ b, i ≠ .decStart b) ∧ (∀ b, i ≠ .decode b) ∧ i ≠ .decStep) :
    u.dec_phase = s.dec_phase ∧ u.dec_off = s.dec_off ∧ u.dec_out = s.dec_out ∧ u.dec_events = s.dec_events := by
  obtain ⟨hstart, hdecode, hstep⟩ := hi
  cases h with
  | crcInit | crcUpdate | crcRead | crc16 | encode | decStatus => exact ⟨rfl, rfl, rfl, rfl⟩
  | decStart buf => exact absurd rfl (hstart buf)
  | decStep | decStepOutside => exact absurd rfl hstep
  | decode buf => exact absurd rfl (hdecode buf)

theorem OpEffect.host_side {i : Instr} {s u : State} (h : OpEffect i s u) :
    u.port = s.port ∧ u.responses = s.responses := by
  cases h with
  | crcInit | crcUpdate | crcRead | crc16 | encode | decStart | decStepOutside | decStatus => exact ⟨rfl, rfl⟩
  | decStep _ r => exact ⟨applyIter_port s r, applyIter_responses s r⟩
  | decode buf _ _ _ hu =>
    obtain ⟨-, hhost⟩ := decLoop_frame hu
    exact hhost

/-- Settles O46: a REFUSED operation is only answered; one answered OK has its effect and is answered. -/
theorem onlyWritersChangeRegisters : Obligations.OnlyWritersChangeRegisters := by
  intro i s t h
  obtain ⟨-, rfl⟩ | ⟨u, res, hu, rfl⟩ := exec_next h
  · exact ⟨fun _ => rfl, fun _ => ⟨rfl, rfl, fun _ => rfl⟩, fun _ => ⟨rfl, rfl, rfl, rfl⟩, rfl, _, rfl⟩
  · obtain ⟨hport, hresponses⟩ := hu.host_side
    refine ⟨hu.crc_reg, fun hi => ?_, hu.pass, hport, _, congrArg (· ++ _) hresponses⟩
    obtain ⟨hbuf, hlen⟩ := hu.buffer hi
    exact ⟨hbuf, hlen, congrFun (bufRead_congr hbuf hlen)⟩

/-! ## What an operation reads (the R column of R21) -/

/-- The same state with another value in crc_reg. -/
def setCrc (v : U16) (s : State) : State := { s with crc_reg := v }

theorem setCrc_pushFrame? (v : U16) (s : State) (fr : Option DecodedFrame) :
    pushFrame? (setCrc v s) fr = setCrc v (pushFrame? s fr) := by
  cases fr <;> rfl

theorem setCrc_applyIter (v : U16) (s : State) (r : IterResult) :
    applyIter (setCrc v s) r = setCrc v (applyIter s r) :=
  congrArg (moveCursor · r.next) (setCrc_pushFrame? v (pushEvent s (iterEvent r s.dec_off)) r.frame)

theorem scanIter_setCrc (P : Params) (v : U16) (s : State) (o : Nat) : scanIter P (setCrc v s) o = scanIter P s o :=
  scanIter_congr (s := setCrc v s) (t := s) rfl rfl o

theorem iterate_setCrc (P : Params) (v : U16) (s : State) :
    iterate P (setCrc v s) = (iterate P s).map (setCrc v) := by
  have hoff : (setCrc v s).dec_off = s.dec_off := rfl
  simp only [iterate, scanIter_setCrc, hoff]
  cases scanIter P s s.dec_off with
  | none => rfl
  | some r => exact congrArg some (setCrc_applyIter v s r)

theorem decLoop_setCrc (P : Params) (v : U16) (n : Nat) (s : State) :
    decLoop P n (setCrc v s) = (decLoop P n s).map (setCrc v) := by
  induction n generalizing s with
  | zero => rfl
  | succ n ih =>
    have hphase : (setCrc v s).dec_phase = s.dec_phase := rfl
    simp only [decLoop, hphase, iterate_setCrc]
    split
    · cases iterate P s with
      | none => rfl
      | some u => exact ih u
    · rfl

/-- Settles O47: each operation takes the same branch, and its effect and answer do not look at crc_reg. -/
theorem encoderAndDecoderIgnoreCrcReg : Obligations.EncoderAndDecoderIgnoreCrcReg := by
  rintro i s t v (⟨f, rfl⟩ | ⟨buf, rfl⟩ | rfl | ⟨buf, rfl⟩ | rfl) h
  · obtain ⟨hwf, rfl⟩ := encodeOp_next h
    exact encodeOp_of_wf hwf _ _
  · obtain ⟨hlt, rfl⟩ | ⟨hle, rfl⟩ := decStartOp_next h
    · exact decStartOp_of_lt hlt _
    · exact decStartOp_of_le hle _
  · obtain ⟨hp, rfl⟩ | ⟨hp, r, hr, rfl⟩ := decStepOp_next h
    · exact decStepOp_of_ne_scan hp
    · have hexec := decStepOp_of_scan (s := setCrc v s) hp ((scanIter_setCrc _ v s _).trans hr)
      rw [setCrc_applyIter] at hexec
      exact hexec
  · obtain ⟨hlt, rfl⟩ | ⟨hle, u, hu, rfl⟩ := decodeOp_next h
    · exact decodeOp_of_lt hlt _
    · refine decodeOp_of_decLoop (t := setCrc v u) hle ?_
      exact (decLoop_setCrc _ v _ (loadPass buf s)).trans (congrArg (Option.map (setCrc v)) hu)
  · cases h
    rfl

/-- Settles O48: what these operations write and answer is given by their operands and crc_reg. -/
theorem crcEngineIgnoresDecoder : Obligations.CrcEngineIgnoresDecoder := by
  rintro i s s' t t' (rfl | ⟨b, rfl⟩ | rfl | ⟨bs, rfl⟩ | ⟨f, rfl⟩) hreg h h'
  · cases h; cases h'
    simp
  · cases h; cases h'
    simp [hreg]
  · cases h; cases h'
    simp [hreg]
  · cases h; cases h'
    simp
  · obtain ⟨-, rfl⟩ := encodeOp_next h
    obtain ⟨-, rfl⟩ := encodeOp_next h'
    simp [hreg]

/-! ## What is rejected -/

/-- Settles O23: the meaning and the decoder make the same check of the payload (R32). -/
theorem overlongPayloadIsRefused : Obligations.OverlongPayloadIsRefused := fun f s hlen =>
  ⟨encodeOp_of_overlong hlen _ s, (decode_encode_frame f).trans (if_neg (mt Frame.wf_iff.mp hlen.not_ge))⟩

/-- R183's condition on the operation, said of the request that issues it. -/
theorem overlong_iff_request {q : Request} {i : Instr} (hi : decode q = .ok i) :
    Overlong i ↔
      ∃ buf, Config.params.bufMax < buf.length ∧ (q = encode (.decStart buf) ∨ q = encode (.decode buf)) := by
  obtain ⟨-, rfl⟩ := decode_ok hi
  have hinj {j : Instr} (hj : j.WellFormed = true) : i = j ↔ encode i = encode j :=
    ⟨congrArg encode, fun h => Except.ok.inj (hi.symm.trans (h ▸ decode_encode hj))⟩
  simp only [Overlong, hinj (j := .decStart _) rfl, hinj (j := .decode _) rfl]

/-- The one response a step adds is the one its operation gave. -/
theorem respond_responses_inj {u : State} {st : Status} {res : Result} {old : List Response} {r : Response}
    (hold : u.responses = old) (h : (respond u st res).responses = old ++ [r]) : r = { status := st, result := res } := by
  simpa [hold] using h.symm

/-- Settles O49: an illegal code, a REFUSED operation and one answered OK are the three ways a request completes. -/
theorem rejectedOperationChangesNoRegister : Obligations.RejectedOperationChangesNoRegister := by
  intro s t q rest r hport h hr
  obtain ⟨hp, -⟩ | ⟨_, hp, -⟩ | ⟨q', rest', hp, hcase⟩ := step_next h
  · cases hport.symm.trans hp
  · cases hport.symm.trans hp
  cases hport.symm.trans hp
  obtain ⟨i, hi, hexec⟩ | ⟨hillegal, rfl⟩ := hcase
  · rw [← overlong_iff_request hi, hi]
    obtain ⟨hover, rfl⟩ | ⟨u, res, hu, rfl⟩ := exec_next hexec
    · obtain rfl := respond_responses_inj rfl hr
      exact ⟨fun _ => ⟨rfl, rfl⟩, by simp, by simp [hover]⟩
    · obtain ⟨-, hresponses⟩ := hu.host_side
      obtain rfl := respond_responses_inj hresponses hr
      exact ⟨fun hne => absurd rfl hne, by simp, by simp [hu.not_overlong]⟩
  · obtain rfl := respond_responses_inj rfl hr
    refine ⟨fun _ => ⟨rfl, rfl⟩, by simp [hillegal], nofun, ?_⟩
    rintro ⟨buf, -, rfl | rfl⟩ <;> cases (decode_encode rfl).symm.trans hillegal

end Sys2Proof.Machine
end

section
/-! PROOFS for spec/20_memory.md: no BufRead out of range stops a step (R52; O54), and every program of the host is
worked off, one input each step (R63; O55, O6). -/

namespace Sys2Proof.Machine

/-! ## Operations complete where R39 holds -/

theorem scanIter_of_inv {P : Params} {s : State} (h : Inv P s) (hp : s.dec_phase = .scan) :
    ∃ r, scanIter P s s.dec_off = some r :=
  scanIter_defined h.len_eq (h.scan_lt hp)

theorem decLoop_succ_of_scan {P : Params} {s : State} {r : IterResult} (hp : s.dec_phase = .scan)
    (hr : scanIter P s s.dec_off = some r) (n : Nat) : decLoop P (n + 1) s = decLoop P n (applyIter s r) := by
  simp [decLoop, iterate, hp, hr]

theorem decLoop_succ_of_ne_scan {s : State} (hp : s.dec_phase ≠ .scan) (P : Params) (n : Nat) :
    decLoop P (n + 1) s = some s := if_neg hp

theorem decLoop_of_inv {P : Params} (n : Nat) {s : State} (h : Inv P s) : ∃ t, decLoop P n s = some t := by
  induction n generalizing s with
  | zero => exact ⟨s, rfl⟩
  | succ n ih =>
    by_cases hp : s.dec_phase = .scan
    · obtain ⟨r, hr⟩ := scanIter_of_inv h hp
      obtain ⟨t, ht⟩ := ih ((inv_decoderInvariant P).iter s r h hp hr)
      exact ⟨t, (decLoop_succ_of_scan hp hr n).trans ht⟩
    · exact ⟨s, decLoop_succ_of_ne_scan hp P n⟩

theorem decStartOp_completes (P : Params) (buf : Bytes) (s : State) : ∃ t, decStartOp P buf s = .next t := by
  obtain hlt | hle := Nat.lt_or_ge P.bufMax buf.length
  · exact ⟨_, decStartOp_of_lt hlt s⟩
  · exact ⟨_, decStartOp_of_le hle s⟩

theorem decStepOp_of_inv {P : Params} {s : State} (h : Inv P s) : ∃ t, decStepOp P s = .next t := by
  by_cases hp : s.dec_phase = .scan
  · obtain ⟨r, hr⟩ := scanIter_of_inv h hp
    exact ⟨_, decStepOp_of_scan hp hr⟩
  · exact ⟨_, decStepOp_of_ne_scan hp⟩

/-- DECODE completes from every state: the pass it loads meets R39, whatever the earlier one was. -/
theorem decodeOp_completes (P : Params) (buf : Bytes) (s : State) : ∃ t, decodeOp P buf s = .next t := by
  obtain hlt | hle := Nat.lt_or_ge P.bufMax buf.length
  · exact ⟨_, decodeOp_of_lt hlt s⟩
  · obtain ⟨t, ht⟩ := decLoop_of_inv buf.length ((inv_decoderInvariant P).load buf s hle)
    exact ⟨_, decodeOp_of_decLoop hle ht⟩

/-- DEC_STEP alone needs R39, and ENCODE alone that its operand is a value of R32. -/
theorem exec_of_inv {i : Instr} {s : State} (hi : i.WellFormed = true) (h : Inv Config.params s) :
    ∃ t, exec i s = .next t := by
  cases i with
  | crcInit | crcUpdate | crcRead | crc16 | decStatus => exact ⟨_, rfl⟩
  | encode f => exact ⟨_, encodeOp_of_wf hi Config.params s⟩
  | decStart buf => exact decStartOp_completes Config.params buf s
  | decStep => exact decStepOp_of_inv h
  | decode buf => exact decodeOp_completes Config.params buf s

/-! ## The step, branch by branch: the converses of `step_next` -/

theorem step_of_port_nil {s : State} (hp : s.port = []) : step s = .next s := by
  simp only [step, hp]

theorem step_of_reset {s : State} {rest : List HostInput} (hp : s.port = .reset :: rest) :
    step s = .next (resetInput (takeInput s rest)) := by
  simp only [step, hp]

theorem step_of_decode_ok {s : State} {q : Request} {rest : List HostInput} {i : Instr} (hp : s.port = .op q :: rest)
    (hq : decode q = .ok i) : step s = exec i (takeInput s rest) := by
  simp only [step, hp, hq]

theorem step_of_decode_error {s : State} {q : Request} {rest : List HostInput} {e : DecodeError}
    (hp : s.port = .op q :: rest) (hq : decode q = .error e) : step s = rejectRequest e (takeInput s rest) := by
  simp only [step, hp, hq]

/-- Settles O6: the port is the only place a step takes an input from. -/
theorem idlePortChangesNothing : Obligations.IdlePortChangesNothing := fun _ => step_of_port_nil

/-! ## Steps complete where R39 holds -/

theorem not_presentable_of_decode {q : Request} {e : DecodeError} (hq : decode q = .error e)
    (he : e ≠ .illegalOp q.op) : ¬ Presentable (.op q) := fun h => he (h e hq)

/-- Where R39 holds a step has two outcomes, and the refusal is only for an input the host cannot present. -/
theorem step_of_inv {s : State} (h : Inv Config.params s) :
    (∃ t, step s = .next t) ∨ ∃ x ∈ s.port.head?, ¬ Presentable x ∧ ∃ ρ, step s = .refused ρ := by
  match hp : s.port with
  | [] => exact .inl ⟨s, step_of_port_nil hp⟩
  | .reset :: rest => exact .inl ⟨_, step_of_reset hp⟩
  | .op q :: rest =>
    match hq : decode q with
    | .ok i =>
      obtain ⟨hi, -⟩ := decode_ok hq
      obtain ⟨t, ht⟩ := exec_of_inv hi ((inv_decoderInvariant _).takeInput h rest)
      exact .inl ⟨t, (step_of_decode_ok hp hq).trans ht⟩
    | .error (.illegalOp _) => exact .inl ⟨_, step_of_decode_error hp hq⟩
    | .error .operandMismatch =>
      exact .inr ⟨_, rfl, not_presentable_of_decode hq nofun, _, step_of_decode_error hp hq⟩
    | .error .payloadTooLong =>
      exact .inr ⟨_, rfl, not_presentable_of_decode hq nofun, _, step_of_decode_error hp hq⟩

/-- Settles O54: neither outcome of `step_of_inv` is a fault, and a presentable input rules out the refusal. -/
theorem noStepStopsOnPresentableInput : Obligations.NoStepStopsOnPresentableInput := by
  intro s h
  obtain ⟨t, ht⟩ | ⟨x, hx, hnot, ρ, hρ⟩ := step_of_inv h
  · exact ⟨fun r => by simp [ht], fun _ => ⟨t, ht⟩⟩
  · exact ⟨fun r => by simp [hρ], fun hpres => absurd (hpres x hx) hnot⟩

/-! ## The host's side of a step -/

/-- How many responses the block owes for a list of inputs: one for each operation (R33), none for a reset (R200). -/
def responsesDue (inputs : List HostInput) : Nat := (inputs.filter fun x => decide (x ≠ .reset)).length

@[simp] theorem responsesDue_nil : responsesDue [] = 0 := rfl

@[simp] theorem responsesDue_reset_cons (rest : List HostInput) :
    responsesDue (.reset :: rest) = responsesDue rest := rfl

@[simp] theorem responsesDue_op_cons (q : Request) (rest : List HostInput) :
    responsesDue (.op q :: rest) = responsesDue rest + 1 := rfl

/-- A step takes the oldest input, and the responses given and still due stay the same in number. -/
theorem step_host_side {s t : State} (h : step s = .next t) :
    t.port = s.port.tail ∧
      t.responses.length + responsesDue t.port = s.responses.length + responsesDue s.port := by
  obtain ⟨hp, rfl⟩ | ⟨rest, hp, rfl⟩ | ⟨q, rest, hp, ⟨i, -, hexec⟩ | ⟨-, rfl⟩⟩ := step_next h
  · simp [hp]
  · simp [hp]
  · obtain ⟨-, -, -, hport, r, hr⟩ := onlyWritersChangeRegisters i _ t hexec
    simp [hp, hport, hr, Nat.add_assoc, Nat.add_comm 1]
  · simp [hp, Nat.add_assoc, Nat.add_comm 1]

/-! ## A host program -/

/-- What holds all along the run of a host program that is owed `due` responses in all. -/
structure Serving (due : Nat) (s : State) : Prop where
  presentable : ∀ x ∈ s.port, Presentable x
  balance : s.responses.length + responsesDue s.port = due
  inv : Inv Config.params s
  log : PassLog s

theorem Serving.of_reset {inputs : List HostInput} (h : ∀ x ∈ inputs, Presentable x) :
    Serving (responsesDue inputs) { State.reset with port := inputs } where
  presentable := h
  balance := Nat.zero_add _
  inv := (inv_decoderInvariant _).takeInput (inv_decoderInvariant _).reset inputs
  log := (passLog_decoderInvariant Config.params).takeInput (passLog_decoderInvariant Config.params).reset inputs

theorem Serving.step {due : Nat} {s : State} (h : Serving due s) :
    ∃ t, step s = .next t ∧ t.port = s.port.tail ∧ Serving due t := by
  obtain ⟨-, hcompletes⟩ := noStepStopsOnPresentableInput s h.inv
  obtain ⟨t, ht⟩ := hcompletes fun x hx => h.presentable x (List.mem_of_mem_head? hx)
  obtain ⟨hport, hbalance⟩ := step_host_side ht
  exact ⟨t, ht, hport,
    { presentable := fun x hx => h.presentable x (List.mem_of_mem_tail (hport ▸ hx))
      balance := hbalance.trans h.balance
      inv := stepKeepsDecoderInvariant s t h.inv ht
      log := stepKeepsPassLog s t h.log ht }⟩

theorem run_succ_of_step {s t : State} (h : step s = .next t) (k : Nat) :
    Host.Core.run core (k + 1) s = Host.Core.run core k t := by
  have hcore : core.step s = .next t := h
  simp only [Host.Core.run, hcore]

theorem Serving.run {due : Nat} (k : Nat) {s : State} (h : Serving due s) :
    ∃ t : State, Host.Core.run core k s = .next t ∧ t.port = s.port.drop k ∧ Serving due t := by
  induction k generalizing s with
  | zero => exact ⟨s, rfl, rfl, h⟩
  | succ k ih =>
    obtain ⟨u, hu, hport, hserving⟩ := h.step
    obtain ⟨t, ht, hdrop, hend⟩ := ih hserving
    exact ⟨t, (run_succ_of_step hu k).trans ht, by rw [hdrop, hport, List.drop_tail], hend⟩

/-- Settles O55: after as many steps as inputs the port is empty, so the responses given are all those due. -/
theorem everyHostProgramCompletes : Obligations.EveryHostProgramCompletes := by
  intro inputs h
  obtain ⟨t, hrun, hport, hend⟩ := (Serving.of_reset h).run inputs.length
  have hempty : t.port = [] := hport.trans List.drop_length
  have hresponses : t.responses.length = responsesDue inputs := by simpa [hempty] using hend.balance
  exact ⟨t, hrun, hempty, hresponses, hend.inv, hend.log⟩

end Sys2Proof.Machine
end

section
/-! PROOFS for spec/30_encoding.md, sections 1 and 3 to 5: requests and operations (O7, O4, O5, O8), and the codes and
lengths the spec tabulates (O9, O10, O24). -/

namespace Sys2Proof

/-! ## Requests and operations (R70 to R73) -/

/-- Settles O7: `decode_ok` is the one direction, `decode_encode` the other. -/
theorem decodeInvertsEncode : Obligations.DecodeInvertsEncode :=
  fun _ _ => ⟨decode_ok, fun ⟨hi, hr⟩ => hr ▸ decode_encode hi⟩

/-- The illegal codes of R72, by range. -/
def IllegalCode (op : U8) : Prop :=
  op.toNat = 0x00 ∨ (0x05 ≤ op.toNat ∧ op.toNat ≤ 0x0F) ∨ (0x11 ≤ op.toNat ∧ op.toNat ≤ 0x1F) ∨ 0x24 ≤ op.toNat

theorem decode_of_illegalCode {op : U8} (h : IllegalCode op) (x : Operand) :
    decode { op := op, operand := x } = .error (.illegalOp op) := by
  simp only [decode]
  split_ifs
  case neg => rfl
  all_goals
    subst op
    simp [IllegalCode] at h

/-- The word of an operation decodes to it when its operand record is the zero record of the code (log 2). -/
theorem decodeTableWord_opCode {i : Instr} (hi : i.WellFormed = true) (hx : zeroOperand (opCode i) = operandOf i) :
    decodeTableWord 8 (opCode i).toNat = some i := by
  have hlt : (opCode i).toNat < 256 := (opCode i).isLt
  have hreq : Request.ofWord 8 (opCode i).toNat = encode i := by
    simp [Request.ofWord, Nat.mod_eq_of_lt hlt, hx, encode]
  simp [decodeTableWord, Nat.mod_lt, hreq, decode_encode hi, Except.toOption]

theorem decodeTableWord_of_illegalCode {op : U8} (h : IllegalCode op) : decodeTableWord 8 op.toNat = none := by
  have hlt : op.toNat < 256 := op.isLt
  simp [decodeTableWord, Request.ofWord, Nat.mod_eq_of_lt hlt, decode_of_illegalCode h, Except.toOption]

/-- Settles O8: each word is the code of an operation with the zero operands of its code, but 0x05, which is illegal. -/
theorem opcodeTableWordsDecode : Obligations.OpcodeTableWordsDecode :=
  ⟨decodeTableWord_opCode (i := .crcInit) rfl rfl, decodeTableWord_opCode (i := .crcUpdate 0) rfl rfl,
    decodeTableWord_opCode (i := .crcRead) rfl rfl, decodeTableWord_opCode (i := .crc16 []) rfl rfl,
    decodeTableWord_opCode (i := .encode ⟨0, 0, 0, [], 0, 0⟩) rfl rfl,
    decodeTableWord_opCode (i := .decStart []) rfl rfl, decodeTableWord_opCode (i := .decStep) rfl rfl,
    decodeTableWord_opCode (i := .decode []) rfl rfl, decodeTableWord_opCode (i := .decStatus) rfl rfl,
    decode_encode (i := .crcUpdate 0x82) rfl, decode_encode (i := .encode ⟨0x8, 0x2, 0x01, [], 0, 0⟩) rfl,
    decodeTableWord_of_illegalCode (op := 0x05) (by simp [IllegalCode])⟩

namespace Machine

/-- Settles O4. -/
theorem stepRunsDecodedOperation : Obligations.StepRunsDecodedOperation :=
  fun _ _ _ _ hport hi => step_of_decode_ok hport hi

/-- Settles O5: no arm of the decoder takes the code, and the block answers what R72 says. -/
theorem illegalCodeAnswered : Obligations.IllegalCodeAnswered :=
  fun _ _ x _ hop hport => step_of_decode_error hport (decode_of_illegalCode hop x)

/-! ## Tabulated codes and lengths -/

theorem endpointId?_eq_some {ep : U4} {e : EndpointID} : endpointId? ep = some e ↔ ep = endpointCode e := by
  cases e <;> revert ep <;> decide

/-- The valid nibbles of R84 as a range. -/
theorem validEndpoint_iff_toNat {ep : U4} : validEndpoint ep = true ↔ 1 ≤ ep.toNat ∧ ep.toNat ≤ 4 := by
  revert ep; decide

theorem messageValid_of_tableOf_none {e : EndpointID} (h : tableOf e = none) (P : Params) (msg : U8) :
    messageValid P (endpointCode e) msg = false := by
  simp [messageValid, endpointId?_eq_some.mpr rfl, h]

/-- Settles O10: an endpoint nibble is the value of at most one endpoint, and radio-link-test and hardware-test have no
message table (R88). -/
theorem endpointEnumeration : Obligations.EndpointEnumeration :=
  ⟨⟨rfl, rfl, rfl, rfl⟩, fun _ _ => endpointId?_eq_some, fun _ => validEndpoint_iff_toNat, fun P msg =>
    ⟨messageValid_of_tableOf_none (e := .radioLinkTest) rfl P msg, messageValid_of_tableOf_none (e := .hwTest) rfl P msg⟩⟩

/-- Settles O9: the codes of R91 and R181 are those of the model's coding functions. -/
theorem enumerationCodes : Obligations.EnumerationCodes :=
  ⟨⟨rfl, rfl, rfl⟩, ⟨rfl, rfl, rfl⟩, rfl, rfl, rfl, rfl, rfl, rfl⟩

/-- Settles O24: the sixteen rows of R79, computed from R77. -/
theorem trailerLengthTable : Obligations.TrailerLengthTable := by
  unfold Obligations.TrailerLengthTable
  decide

end Machine
end Sys2Proof
end

section
/-! PROOFS for spec/30_encoding.md R90: the composite operations CRC16 (O16) and DECODE (O35) against the sequences of
operations they stand for. -/

namespace Sys2Proof.Machine

/-! ## Several operations in order -/

@[simp] theorem runOps_nil (s : State) : runOps [] s = .next s := rfl

theorem runOps_cons_of_next {i : Instr} {s t : State} (h : exec i s = .next t) (is : List Instr) :
    runOps (i :: is) s = runOps is t := by
  simp only [runOps, h]

theorem runOps_append_of_next {is : List Instr} {s t : State} (h : runOps is s = .next t) (js : List Instr) :
    runOps (is ++ js) s = runOps js t := by
  induction is generalizing s with
  | nil => cases h; rfl
  | cons i is ih =>
    cases hi : exec i s with
    | next u => rw [List.cons_append, runOps_cons_of_next hi, ih (runOps_cons_of_next hi is ▸ h)]
    | fault r => simp [runOps, hi] at h
    | refused r => simp [runOps, hi] at h

/-! ## CRC16 -/

/-- CRC_UPDATE of each byte of a sequence is the byte steps of the sequence, each operation answered OK. -/
theorem runOps_crcUpdate (bs : Bytes) (s : State) :
    runOps (bs.map .crcUpdate) s = .next
      { s with
        crc_reg := crcBytes s.crc_reg bs
        responses := s.responses ++ List.replicate bs.length { status := .ok, result := .none } } := by
  induction bs generalizing s with
  | nil => simp
  | cons b bs ih =>
    have hb : exec (.crcUpdate b) s = .next (respond { s with crc_reg := crcByte s.crc_reg b } .ok .none) := rfl
    simp [runOps_cons_of_next hb, ih, respond, List.replicate_succ]

theorem runOps_crc16Expansion (bs : Bytes) (s : State) :
    ∃ rs, runOps (.crcInit :: bs.map .crcUpdate ++ [.crcRead]) s = .next
      { s with
        crc_reg := crcBytes CRC_START bs
        responses := rs ++ [{ status := .ok, result := .crc16 (Machine.crc16 bs) }] } := by
  have hinit : exec .crcInit s = .next (respond { s with crc_reg := CRC_START } .ok .none) := rfl
  rw [List.cons_append, runOps_cons_of_next hinit, runOps_append_of_next (runOps_crcUpdate bs _)]
  exact ⟨_, rfl⟩

/-- Settles O16: both leave the byte steps of the sequence from CRC_INIT's value, and answer their complement. -/
theorem crc16IsItsExpansion : Obligations.Crc16IsItsExpansion := by
  intro bs s
  obtain ⟨rs, hrun⟩ := runOps_crc16Expansion bs s
  exact ⟨_, _, rfl, hrun, rfl, by simp [Machine.crc16]⟩

/-! ## DECODE -/

/-- The same state with other responses given so far. -/
def setResponses (rs : List Response) (s : State) : State := { s with responses := rs }

theorem setResponses_applyIter (rs : List Response) (s : State) (r : IterResult) :
    applyIter (setResponses rs s) r = setResponses rs (applyIter s r) := by
  obtain ⟨code, frame, next⟩ := r
  cases frame <;> rfl

/-- DEC_STEP in a pass applies the iteration that DECODE's loop applies, whatever responses were given before. -/
theorem exec_decStep_setResponses {s : State} {r : IterResult} (hp : s.dec_phase = .scan)
    (hr : scanIter Config.params s s.dec_off = some r) (rs : List Response) :
    ∃ rs', exec .decStep (setResponses rs s) = .next (setResponses rs' (applyIter s r)) := by
  have hr' : scanIter Config.params (setResponses rs s) s.dec_off = some r :=
    (scanIter_congr (s := setResponses rs s) (t := s) rfl rfl _).trans hr
  have hexec := decStepOp_of_scan (s := setResponses rs s) hp hr'
  rw [setResponses_applyIter] at hexec
  exact ⟨_, hexec⟩

/-- The loop of DECODE, given as many iterations as bytes are left, ends the pass, and it does what one DEC_STEP for each
event it adds does. -/
theorem decLoop_eq_decSteps {n : Nat} {s : State} (rs : List Response) (h : Inv Config.params s)
    (hidle : s.dec_phase ≠ .idle) (hn : s.dec_len ≤ s.dec_off + n) :
    ∃ (k : Nat) (t : State) (rs' : List Response), k ≤ n ∧ decLoop Config.params n s = some t ∧
      runOps (List.replicate k .decStep) (setResponses rs s) = .next (setResponses rs' t) ∧
      t.dec_phase = .done ∧ t.dec_events.length = s.dec_events.length + k := by
  induction n generalizing s rs with
  | zero =>
    have hdone : s.dec_phase = .done := by
      cases hp : s.dec_phase with
      | idle => exact absurd hp hidle
      | scan => exact absurd (h.scan_lt hp) (Nat.not_lt.mpr hn)
      | done => rfl
    exact ⟨0, s, rs, Nat.le_refl 0, rfl, rfl, hdone, rfl⟩
  | succ n ih =>
    cases hp : s.dec_phase with
    | idle => exact absurd hp hidle
    | done => exact ⟨0, s, rs, Nat.zero_le _, decLoop_succ_of_ne_scan (by simp [hp]) _ n, rfl, hp, rfl⟩
    | scan =>
      obtain ⟨r, hr⟩ := scanIter_of_inv h hp
      obtain ⟨hforward, -⟩ := scanIter_next hr
      obtain ⟨rs₁, hstep⟩ := exec_decStep_setResponses hp hr rs
      have hidle' : (applyIter s r).dec_phase ≠ .idle := by
        rw [applyIter_dec_phase, hp]; split <;> simp
      obtain ⟨k, t, rs', hk, hloop, hrun, hdone, hlen⟩ :=
        ih rs₁ ((inv_decoderInvariant _).iter s r h hp hr) hidle' (by simp; omega)
      refine ⟨k + 1, t, rs', Nat.succ_le_succ hk, (decLoop_succ_of_scan hp hr n).trans hloop, ?_, hdone, ?_⟩
      · exact (runOps_cons_of_next hstep _).trans hrun
      · simp [hlen, Nat.add_assoc, Nat.add_comm 1]

/-- Settles O35: DEC_START loads the pass DECODE loads, and the DEC_STEPs are the iterations of DECODE's loop. -/
theorem decodeIsStartThenSteps : Obligations.DecodeIsStartThenSteps := by
  intro buf s hle
  have hidle : (loadPass buf s).dec_phase ≠ .idle := by
    rw [loadPass_dec_phase]; split <;> simp
  have hstart : exec (.decStart buf) s = .next (respond (loadPass buf s) .ok .none) := decStartOp_of_le hle s
  obtain ⟨k, t, rs, hk, hloop, hrun, hdone, hlen⟩ :=
    decLoop_eq_decSteps (respond (loadPass buf s) .ok .none).responses ((inv_decoderInvariant _).load buf s hle) hidle
      (Nat.le_add_left buf.length _)
  refine ⟨k, _, setResponses rs t, hk, decodeOp_of_decLoop hle hloop, ?_, hdone, ?_, rfl⟩
  · exact (runOps_cons_of_next hstart _).trans hrun
  · simpa [setResponses] using hlen.symm

end Sys2Proof.Machine
end

section
/-! PROOFS for spec/30_encoding.md R76 to R78: the bytes an accepting iteration has read are the encoding of the frame it
reports (O39). -/

namespace Sys2Proof.Machine

/-! ## Values and their bytes (R54, R75, R76) -/

theorem flagsEndpointByte_flagsOf_endpointOf (b : U8) : flagsEndpointByte (flagsOf b) (endpointOf b) = b := by
  revert b; decide

/-- The received CRC of R145, written little-endian, is the two bytes it was read from. -/
theorem LE16_of_bytes (lo hi : U8) : LE16 (lo.zeroExtend 16 ||| (hi.zeroExtend 16 <<< 8)) = [lo, hi] := by
  have hlo : (lo.zeroExtend 16 ||| (hi.zeroExtend 16 <<< 8)).truncate 8 = lo := by
    ext i hi'; simp
  have hhi : ((lo.zeroExtend 16 ||| (hi.zeroExtend 16 <<< 8)) >>> 8).truncate 8 = hi := by
    ext i hi'; simp [BitVec.getLsbD_eq_getElem, hi', show 8 + i < 16 by omega, show i < 16 by omega]
  rw [LE16, hlo, hhi]

theorem LE32_fromLE {bs : Bytes} (h : bs.length = 4) : LE32 (BitVec.ofNat 32 (fromLE bs)) = bs := by
  match bs, h with
  | [a, b, c, d], _ =>
    simp only [LE32, fromLE, List.cons.injEq, and_true]
    refine ⟨?_, ?_, ?_, ?_⟩ <;> apply BitVec.eq_of_toNat_eq <;> simp [Nat.shiftRight_eq_div_pow] <;> omega

/-! ## BufRead, several bytes at a time (R58) -/

theorem bufSlice_succ_eq_some {s : State} {i n : Nat} {bs : Bytes} :
    bufSlice s i (n + 1) = some bs ↔ ∃ b cs, bufRead s i = some b ∧ bufSlice s (i + 1) n = some cs ∧ bs = b :: cs := by
  simp only [bufSlice, Option.bind_eq_bind, Option.bind_eq_some_iff, Option.some.injEq]
  constructor
  · rintro ⟨b, hb, cs, hcs, rfl⟩
    exact ⟨b, cs, hb, hcs, rfl⟩
  · rintro ⟨b, cs, hb, hcs, rfl⟩
    exact ⟨b, hb, cs, hcs, rfl⟩

theorem bufSlice_cons {s : State} {i n : Nat} {b : U8} {bs : Bytes} (hb : bufRead s i = some b)
    (hbs : bufSlice s (i + 1) n = some bs) : bufSlice s i (n + 1) = some (b :: bs) :=
  bufSlice_succ_eq_some.mpr ⟨b, bs, hb, hbs, rfl⟩

theorem bufSlice_append {s : State} {m n i : Nat} {xs ys : Bytes} (hx : bufSlice s i m = some xs)
    (hy : bufSlice s (i + m) n = some ys) : bufSlice s i (m + n) = some (xs ++ ys) := by
  induction m generalizing i xs with
  | zero => cases hx; simpa using hy
  | succ m ih =>
    obtain ⟨b, zs, hb, hzs, rfl⟩ := bufSlice_succ_eq_some.mp hx
    rw [Nat.add_right_comm m 1 n]
    exact bufSlice_cons hb (ih hzs (by rwa [Nat.add_assoc, Nat.add_comm 1 m]))

/-! ## The trailers read are the trailers written -/

theorem bufSlice_of_readTimestamp {s : State} {flags : U4} {p : Nat} {ts : U32} (h : readTimestamp s flags p = some ts) :
    bufSlice s p (tsLen flags) = some (if TS flags then LE32 ts else []) := by
  by_cases hf : TS flags = true
  · simp only [readTimestamp, hf, if_true, Option.map_eq_some_iff] at h
    obtain ⟨bs, hbs, rfl⟩ := h
    simp only [tsLen, hf, if_true]
    rw [hbs, LE32_fromLE (bufSlice_length hbs)]
  · simp [tsLen, hf, bufSlice]

theorem bufSlice_of_readRssi {s : State} {flags : U4} {p : Nat} {rssi : U8} (h : readRssi s flags p = some rssi) :
    bufSlice s p (rssiLen flags) = some (if RS flags then [rssi] else []) := by
  by_cases hf : RS flags = true
  · simp only [readRssi, hf, if_true] at h
    simpa only [rssiLen, hf, if_true] using bufSlice_cons h rfl
  · simp [rssiLen, hf, bufSlice]

theorem bufSlice_of_readCrc {s : State} {p : Nat} {v : U16} (h : readCrc s p = some v) :
    bufSlice s p 2 = some (LE16 v) := by
  simp only [readCrc, Option.bind_eq_bind, Option.bind_eq_some_iff, Option.some.injEq] at h
  obtain ⟨lo, hlo, hi, hhi, rfl⟩ := h
  rw [LE16_of_bytes]
  exact bufSlice_cons hlo (bufSlice_cons hhi rfl)

/-! ## What an accepting iteration has read -/

/-- The `len` bytes behind the SOF at cursor o are those the CRC of d covers (R78); where CRC16Field is set, d carries
their CRC and its bytes follow; the cursor goes to o', behind all of these. -/
structure ReadFrom (s : State) (o o' : Nat) (d : DecodedFrame) (len : Nat) : Prop where
  sof : bufRead s o = some SOF
  covered : bufSlice s (o + 1) len = some (coveredBytes (frameOf d))
  crc_bytes : bufSlice s (o + 1 + len) (crcLen d.flags) = some (if CR d.flags then LE16 d.crc else [])
  crc_eq : CR d.flags = true → d.crc = crc16 (coveredBytes (frameOf d))
  next_eq : o' = o + 1 + len + crcLen d.flags

/-- A whole candidate is kept only with the bytes of its frame read in the order ENCODE writes them, and with the CRC
compared to that of all of them. -/
theorem scanBody_readFrom {P : Params} {s : State} {o N F : Nat} {flags ep : U4} {msg : U8} {r : IterResult}
    {d : DecodedFrame} (hsof : bufRead s o = some SOF)
    (hheader : bufSlice s (o + 1) 3 = some [flagsEndpointByte flags ep, msg, BitVec.ofNat 8 N])
    (h : scanBody P s o flags ep msg N F = some r) (hd : r.frame = some d) : ∃ len, ReadFrom s o r.next d len := by
  simp only [scanBody, Option.bind_eq_bind, Option.bind_eq_some_iff] at h
  obtain ⟨payload, hpayload, ts, hts, rssi, hrssi, h⟩ := h
  have hcovered : bufSlice s (o + 1) (3 + N + tsLen flags + rssiLen flags) =
      some (coveredBytes ⟨flags, ep, msg, payload, ts, rssi⟩) := by
    simp only [coveredBytes, bufSlice_length hpayload]
    refine bufSlice_append (bufSlice_append (bufSlice_append hheader hpayload) ?_) ?_
    · rw [show o + 1 + (3 + N) = o + 4 + N by omega]
      exact bufSlice_of_readTimestamp hts
    · rw [show o + 1 + (3 + N + tsLen flags) = o + 4 + (N + tsLen flags) by omega]
      exact bufSlice_of_readRssi hrssi
  have hlen : 3 + (N + tsLen flags + rssiLen flags) = 3 + N + tsLen flags + rssiLen flags := by omega
  have hcrcAt : o + 1 + (3 + N + tsLen flags + rssiLen flags) = o + 4 + (N + tsLen flags + rssiLen flags) := by omega
  refine ⟨3 + N + tsLen flags + rssiLen flags, ?_⟩
  split at h
  next hCR =>
    simp only [hlen, hcovered, Option.bind_some, Option.bind_eq_some_iff] at h
    obtain ⟨rx, hrx, h⟩ := h
    split at h
    · cases h; cases hd
    next hcrc =>
      cases h; cases hd
      exact
        { sof := hsof
          covered := hcovered
          crc_bytes := by
            simp only [crcLen, hCR, if_true]
            rw [hcrcAt]
            exact bufSlice_of_readCrc hrx
          crc_eq := fun _ => (not_not.mp hcrc).symm
          next_eq := by simp [acceptFrame, crcLen, hCR]; omega }
  next hCR =>
    cases h; cases hd
    exact
      { sof := hsof
        covered := hcovered
        crc_bytes := by simp [crcLen, hCR, bufSlice]
        crc_eq := fun hf => absurd hf hCR
        next_eq := by simp [acceptFrame, crcLen, hCR]; omega }

/-- A candidate is kept only behind an SOF, a flags/endpoint byte, a message id and a length byte. -/
theorem scanIter_readFrom {P : Params} {s : State} {o : Nat} {r : IterResult} {d : DecodedFrame}
    (h : scanIter P s o = some r) (hd : r.frame = some d) : ∃ len, ReadFrom s o r.next d len := by
  simp only [scanIter, Option.bind_eq_bind, Option.bind_eq_some_iff] at h
  obtain ⟨b0, hb0, h⟩ := h
  split_ifs at h with hsof hlast
  · cases h; cases hd
  · cases h; cases hd
  obtain ⟨b1, hb1, h⟩ := Option.bind_eq_some_iff.mp h
  simp only [scanHeader] at h
  split_ifs at h with hep hwhole
  · cases h; cases hd
  · cases h; cases hd
  simp only [Option.bind_eq_bind, Option.bind_eq_some_iff] at h
  obtain ⟨msg, hmsg, n, hn, h⟩ := h
  split_ifs at h with hclaimed
  · cases h; cases hd
  refine scanBody_readFrom (not_not.mp hsof ▸ hb0) ?_ h hd
  rw [flagsEndpointByte_flagsOf_endpointOf, BitVec.ofNat_toNat, BitVec.setWidth_eq]
  exact bufSlice_cons hb1 (bufSlice_cons hmsg (bufSlice_cons hn rfl))

/-! ## The encoding of a decoded frame -/

theorem encodeFrame_of_emit {P : Params} (hP : P.encTrailers = .emit) (f : Frame) :
    encodeFrame P f = SOF :: (coveredBytes f ++ if CR f.flags then LE16 (crc16 (coveredBytes f)) else []) := by
  have hbody : emit (emit (encodeHeader f) f.payload) (encodeTrailers P f) = SOF :: coveredBytes f := by
    simp [emit, encodeHeader, encodeTrailers, hP, coveredBytes]
  simp only [encodeFrame, hbody]
  split <;> simp [emit]

theorem decodable_frameOf {P : Params} {d : DecodedFrame} (h : LegalFrame P d) : Decodable (frameOf d) :=
  ⟨Frame.wf_iff.mpr h.payload_le, h.endpoint_valid⟩

/-- An absent field is 0 (R157). -/
theorem ite_eq_of_absent {n : Nat} {present : Bool} {v : BitVec n} (h : present = false → v = 0) :
    (if present = true then v else 0) = v := by
  cases present with
  | false => exact (h rfl).symm
  | true => rfl

/-- A legal frame that carries the CRC of its bytes is the one its encoding decodes to (R167). -/
theorem decodedOf_frameOf {P : Params} {d : DecodedFrame} (h : LegalFrame P d)
    (hcrc : CR d.flags = true → d.crc = crc16 (coveredBytes (frameOf d))) : decodedOf P (frameOf d) = d := by
  have hcrc' : (if CR d.flags = true then crc16 (coveredBytes (frameOf d)) else 0) = d.crc := by
    split
    next hf => exact (hcrc hf).symm
    next hf => exact (h.crc_absent (by simpa using hf)).symm
  calc decodedOf P (frameOf d)
      = { d with
          message_valid := messageValid P d.endpoint d.message_id
          timestamp := if TS d.flags then d.timestamp else 0
          rssi := if RS d.flags then d.rssi else 0
          crc := if CR d.flags then crc16 (coveredBytes (frameOf d)) else 0 } := rfl
    _ = d := by rw [ite_eq_of_absent h.timestamp_absent, ite_eq_of_absent h.rssi_absent, hcrc', ← h.valid_eq]

theorem ReadFrom.bufSlice_eq {P : Params} {s : State} {o o' len : Nat} {d : DecodedFrame} (h : ReadFrom s o o' d len)
    (hP : P.encTrailers = .emit) : bufSlice s o (o' - o) = some (encodeFrame P (frameOf d)) := by
  have hcrc : (if CR d.flags then LE16 d.crc else []) =
      if CR d.flags then LE16 (crc16 (coveredBytes (frameOf d))) else [] := by
    split
    next hf => rw [h.crc_eq hf]
    next => rfl
  have hlen : o' - o = len + crcLen d.flags + 1 := by have := h.next_eq; omega
  rw [encodeFrame_of_emit hP, hlen]
  exact bufSlice_cons h.sof (bufSlice_append h.covered (h.crc_bytes.trans (congrArg some hcrc)))

/-- Settles O39: the iteration behind DEC_STEP has read the encoding of its frame, and the frame is legal. -/
theorem acceptedBytesAreAnEncoding : Obligations.AcceptedBytesAreAnEncoding := by
  intro s t d hwf hp hexec hout
  obtain ⟨hnot, -⟩ | ⟨-, r, hr, rfl⟩ := decStepOp_next hexec
  · exact absurd hp hnot
  have hd : r.frame = some d := by simpa [Option.toList_eq_singleton_iff] using hout
  obtain ⟨len, hread⟩ := scanIter_readFrom hr hd
  have hlegal := scanIter_frame_legal hr hd
  obtain ⟨hforward, hinside⟩ := scanIter_next hr
  have hinside' : s.dec_off + (r.next - s.dec_off) ≤ s.dec_buf.length := by
    have hlen : s.dec_len = s.dec_buf.length := hwf
    omega
  have hbytes := (bufSlice_of_wf hwf _ _ hinside').symm.trans (hread.bufSlice_eq (P := Config.params) rfl)
  exact ⟨by simpa using hbytes.symm, decodable_frameOf hlegal, (decodedOf_frameOf hlegal hread.crc_eq).symm⟩

end Sys2Proof.Machine
end

section
/-! PROOFS for spec/40_crc.md: the CRC function's bijection, table, residue and burst properties (O17 to O20) and the
operations CRC_INIT, CRC_UPDATE, CRC_READ and CRC16 (O12 to O15). All four properties rest on the bit step's linearity
(`crcBit_xor`) and on what a register does with its own low bits (`foldl_crcBit_ownBits`). -/

namespace Sys2Proof.Machine

/-! ## Bit steps of a sequence of bits -/

/-- The bit steps of the XOR of two sequences are the XOR of their bit steps: R107's linearity, over sequences. -/
theorem foldl_crcBit_xor {ds es : List Bool} (h : ds.length = es.length) (r s : U16) :
    (List.zipWith xor ds es).foldl crcBit (r ^^^ s) = ds.foldl crcBit r ^^^ es.foldl crcBit s := by
  induction ds generalizing es r s with
  | nil => cases List.length_eq_zero_iff.mp h.symm; rfl
  | cons d ds ih =>
    obtain - | ⟨e, es⟩ := es
    · exact absurd h (Nat.succ_ne_zero _)
    · rw [List.zipWith_cons_cons, List.foldl_cons, crcBit_xor]
      exact ih (Nat.succ.inj h) _ _

theorem crcBit_zero_false : crcBit 0 false = 0 := by decide

/-- Zero bits leave a zero register as it is. -/
theorem foldl_crcBit_zero_of_false {w : List Bool} (h : ∀ d ∈ w, d = false) : w.foldl crcBit 0 = 0 := by
  rw [List.eq_replicate_of_mem h]
  induction w.length with
  | zero => rfl
  | succ n ih => rw [List.replicate_succ, List.foldl_cons, crcBit_zero_false, ih]

/-- A zero bit takes no register but zero to zero: POLY would set bit 15, and without it bit 0 was clear. -/
theorem eq_zero_of_crcBit_false {r : U16} (h : crcBit r false = 0) : r = 0 := by
  obtain ⟨hlow, hshift⟩ := crcBit_of_msb_clear (r := r) (d := false) (by rw [h]; rfl)
  have hhigh : r >>> 1 = 0 := hshift.symm.trans h
  refine BitVec.eq_of_getLsbD_eq fun i _ => ?_
  cases i with
  | zero => exact hlow.symm
  | succ i => simpa [Nat.add_comm] using congrArg (·.getLsbD i) hhigh

/-- For each data bit the bit step is injective, by linearity. -/
theorem crcBit_injective (d : Bool) : Function.Injective (crcBit · d) := by
  intro r s h
  refine BitVec.xor_eq_zero_iff.mp (eq_zero_of_crcBit_false ?_)
  calc crcBit (r ^^^ s) false
      = crcBit (r ^^^ s) (d ^^ d) := by rw [Bool.xor_self]
    _ = crcBit r d ^^^ crcBit s d := crcBit_xor r s d d
    _ = 0 := BitVec.xor_eq_zero_iff.mpr h

theorem foldl_crcBit_injective (w : List Bool) : Function.Injective fun r : U16 => w.foldl crcBit r := by
  induction w with
  | nil => exact Function.injective_id
  | cons d w ih => exact ih.comp (crcBit_injective d)

/-- A register that takes in its own low bits never meets the polynomial: it is only shifted. -/
theorem foldl_crcBit_ownBits (r : U16) (n : Nat) : ((List.range n).map r.getLsbD).foldl crcBit r = r >>> n := by
  induction n with
  | zero => simp
  | succ n ih =>
    rw [List.range_succ, List.map_append, List.foldl_append, ih]
    simp [crcBit, BitVec.shiftRight_add]

/-- Conversely, if as many top bits of the register are clear at the end as bits were taken in, no step met the
polynomial, and the bits were the register's own low bits. Induction from the last bit: the top bit that is clear after
a step is bit 15, and those below it come from one place higher. -/
theorem eq_ownBits_of_foldl_crcBit {r : U16} (w : List Bool) (hlen : w.length ≤ 16)
    (hclear : ∀ j, 16 - w.length ≤ j → (w.foldl crcBit r).getLsbD j = false) :
    w = (List.range w.length).map r.getLsbD := by
  induction w using List.reverseRecOn with
  | nil => rfl
  | append_singleton w d ih =>
    rw [List.length_append, List.length_singleton] at hlen hclear
    rw [List.foldl_append] at hclear
    obtain ⟨hd, hshift⟩ := crcBit_of_msb_clear (r := w.foldl crcBit r) (d := d) (hclear 15 (by omega))
    have hw := ih (by omega) fun j hj => by
      have hbit := hclear (j - 1) (by omega)
      rw [List.foldl_cons, List.foldl_nil, hshift, BitVec.getLsbD_ushiftRight] at hbit
      rwa [Nat.add_sub_cancel' (by omega)] at hbit
    have hreg : w.foldl crcBit r = r >>> w.length := by
      conv_lhs => rw [hw]
      exact foldl_crcBit_ownBits r w.length
    rw [List.length_append, List.length_singleton, List.range_succ, List.map_append, ← hw, hd, hreg]
    simp

/-! ## The byte step -/

theorem bitsOfByte_xor (a b : U8) : bitsOfByte (a ^^^ b) = List.zipWith xor (bitsOfByte a) (bitsOfByte b) := by
  simp [bitsOfByte, List.zipWith_map]

theorem bitsOfByte_injective : Function.Injective bitsOfByte := fun _ _ h =>
  BitVec.eq_of_getLsbD_eq fun i hi => List.map_inj_left.mp h i (List.mem_range.mpr hi)

theorem flatMap_bitsOfByte_injective : Function.Injective fun x : Bytes => x.flatMap bitsOfByte := by
  intro x
  induction x with
  | nil =>
    intro y h
    cases y with
    | nil => rfl
    | cons c y => exact absurd (congrArg List.length h).symm (by simp)
  | cons b x ih =>
    intro y h
    cases y with
    | nil => exact absurd (congrArg List.length h) (by simp)
    | cons c y =>
      obtain ⟨hb, hx⟩ := List.append_inj h (by simp)
      rw [bitsOfByte_injective hb, ih hx]

theorem crcByte_xor (r s : U16) (a b : U8) : crcByte (r ^^^ s) (a ^^^ b) = crcByte r a ^^^ crcByte s b := by
  rw [crcByte, bitsOfByte_xor]
  exact foldl_crcBit_xor (ds := bitsOfByte a) (es := bitsOfByte b) rfl r s

theorem crcByte_ownLowByte (r : U16) : crcByte r (r.truncate 8) = r >>> 8 := by
  have hbits : bitsOfByte (r.truncate 8) = (List.range 8).map r.getLsbD :=
    List.map_congr_left fun i hi => by
      rw [BitVec.truncate_eq_setWidth, BitVec.getLsbD_setWidth, decide_eq_true (List.mem_range.mp hi), Bool.true_and]
  rw [crcByte, hbits, foldl_crcBit_ownBits]

/-- The register's own low byte in the data only shifts it; the rest of the data goes through what is XORed to it. -/
theorem crcByte_xor_ownLowByte (r s : U16) (b : U8) :
    crcByte (r ^^^ s) (r.truncate 8 ^^^ b) = r >>> 8 ^^^ crcByte s b := by
  rw [crcByte_xor, crcByte_ownLowByte]

theorem crcByte_injective (b : U8) : Function.Injective fun r : U16 => crcByte r b :=
  foldl_crcBit_injective (bitsOfByte b)

/-- Settles O17: the byte step is injective, and there are finitely many registers. -/
theorem crcByteStepIsBijective : Obligations.CrcByteStepIsBijective :=
  fun b => (crcByte_injective b).bijective_of_finite

/-- Settles O18: the byte is the register's own low byte, which only shifts it, XORed with the table index, which goes
through a zero register. -/
theorem crcByteStepIsTableStep : Obligations.CrcByteStepIsTableStep := by
  intro r b
  calc crcByte r b
      = crcByte (r ^^^ 0) (r.truncate 8 ^^^ (r.truncate 8 ^^^ b)) := by simp
    _ = r >>> 8 ^^^ crcByte 0 (r.truncate 8 ^^^ b) := crcByte_xor_ownLowByte ..

/-! ## The residue (R108) -/

theorem LE16_xor (v m : U16) : LE16 (v ^^^ m) =
    [v.truncate 8 ^^^ m.truncate 8, (v >>> 8).truncate 8 ^^^ (m >>> 8).truncate 8] := by
  simp [LE16, BitVec.setWidth_xor, BitVec.ushiftRight_xor_distrib]

/-- A register that takes in its own value under a mask, little-endian, is left with what the mask alone leaves. -/
theorem crcBytes_LE16_xor (r m : U16) : crcBytes r (LE16 (r ^^^ m)) = crcBytes 0 (LE16 m) :=
  calc crcBytes r (LE16 (r ^^^ m))
      = crcByte (crcByte (r ^^^ 0) (r.truncate 8 ^^^ m.truncate 8))
          ((r >>> 8).truncate 8 ^^^ (m >>> 8).truncate 8) := by simp [LE16_xor]
    _ = r >>> 8 >>> 8 ^^^ crcBytes 0 (LE16 m) := by
        rw [crcByte_xor_ownLowByte, crcByte_xor_ownLowByte]; rfl
    _ = crcBytes 0 (LE16 m) := by
        rw [← BitVec.shiftRight_add, BitVec.ushiftRight_eq_zero (Nat.le_refl 16), BitVec.zero_xor]

theorem crcBytes_append_LE16_crc16 (d : Bytes) : crcBytes CRC_START (d ++ LE16 (crc16 d)) = 0xF0B8 :=
  calc crcBytes CRC_START (d ++ LE16 (crc16 d))
      = crcBytes 0 (LE16 CRC_XOROUT) := by rw [crcBytes_append]; exact crcBytes_LE16_xor ..
    _ = 0xF0B8 := by decide +kernel

/-- Settles O19: crc16 is the register under the mask CRC_XOROUT. -/
theorem crcResidueIsConstant : Obligations.CrcResidueIsConstant := fun d =>
  ⟨crcBytes_append_LE16_crc16 d, congrArg (· ^^^ CRC_XOROUT) (crcBytes_append_LE16_crc16 d)⟩

/-! ## Bursts (R110) -/

/-- Bits that take a zero register back to zero and are zero outside a window of 16 are all zero: those before the
window leave the register zero, those after it can come to zero from zero only, and those inside it were the low bits of a zero
register. -/
theorem eq_false_of_burst {e : List Bool} {k : Nat} (hzero : e.foldl crcBit 0 = 0)
    (hwindow : ∀ i, e[i]? = some true → k ≤ i ∧ i < k + 16) : ∀ d ∈ e, d = false := by
  have hbefore : ∀ d ∈ e.take k, d = false := fun d hd => by
    obtain ⟨i, hi⟩ := List.mem_iff_getElem?.mp hd
    rw [List.getElem?_take, Option.ite_none_right_eq_some] at hi
    obtain ⟨hik, hbit⟩ := hi
    cases d with
    | false => rfl
    | true => have := hwindow i hbit; omega
  have hafter : ∀ d ∈ (e.drop k).drop 16, d = false := fun d hd => by
    obtain ⟨i, hi⟩ := List.mem_iff_getElem?.mp hd
    rw [List.drop_drop, List.getElem?_drop] at hi
    cases d with
    | false => rfl
    | true => have := hwindow _ hi; omega
  have hsplit : e = e.take k ++ ((e.drop k).take 16 ++ (e.drop k).drop 16) := by
    rw [List.take_append_drop, List.take_append_drop]
  have hinside : ((e.drop k).take 16).foldl crcBit 0 = 0 := by
    rw [hsplit, List.foldl_append, foldl_crcBit_zero_of_false hbefore, List.foldl_append] at hzero
    exact foldl_crcBit_injective _ (hzero.trans (foldl_crcBit_zero_of_false hafter).symm)
  have hown := eq_ownBits_of_foldl_crcBit (r := 0) _ (List.length_take_le 16 (e.drop k)) fun j _ => by
    rw [hinside]; exact BitVec.getLsbD_zero
  intro d hd
  rw [hsplit, List.mem_append, List.mem_append] at hd
  obtain hd | hd | hd := hd
  · exact hbefore d hd
  · rw [hown] at hd
    obtain ⟨i, -, rfl⟩ := List.mem_map.mp hd
    exact BitVec.getLsbD_zero
  · exact hafter d hd

theorem eq_of_zipWith_xor_eq_false {ds es : List Bool} (h : ds.length = es.length)
    (hfalse : ∀ d ∈ List.zipWith xor ds es, d = false) : ds = es := by
  refine List.ext_getElem h fun i hd he => ?_
  have hi : i < (List.zipWith xor ds es).length := by simp [hd, he]
  simpa using hfalse _ (List.getElem_mem hi)

theorem crcBytes_eq_of_crc16_eq {x y : Bytes} (h : crc16 x = crc16 y) :
    crcBytes CRC_START x = crcBytes CRC_START y :=
  (BitVec.xor_left_inj _).mp h

/-- Settles O20: equal CRCs would make the XOR of the two bit sequences such a burst. -/
theorem crcDetectsShortBursts : Obligations.CrcDetectsShortBursts := by
  intro x y k hlen hne hdiff hcrc
  have hbits : (x.flatMap bitsOfByte).length = (y.flatMap bitsOfByte).length := by simp [hlen]
  have hzero : (List.zipWith xor (x.flatMap bitsOfByte) (y.flatMap bitsOfByte)).foldl crcBit 0 = 0 :=
    calc (List.zipWith xor (x.flatMap bitsOfByte) (y.flatMap bitsOfByte)).foldl crcBit (CRC_START ^^^ CRC_START)
        = crcBytes CRC_START x ^^^ crcBytes CRC_START y := by
          rw [foldl_crcBit_xor hbits, crcBytes_eq_bits, crcBytes_eq_bits]
      _ = 0 := BitVec.xor_eq_zero_iff.mpr (crcBytes_eq_of_crc16_eq hcrc)
  have hwindow : ∀ i, (List.zipWith xor (x.flatMap bitsOfByte) (y.flatMap bitsOfByte))[i]? = some true →
      k ≤ i ∧ i < k + 16 := fun i hi => hdiff i fun heq => by
    obtain ⟨d, e, hd, he, hde⟩ := List.getElem?_zipWith_eq_some.mp hi
    have : d = e := Option.some.inj (hd.symm.trans (heq.trans he))
    simp [this] at hde
  exact hne (flatMap_bitsOfByte_injective (eq_of_zipWith_xor_eq_false hbits (eq_false_of_burst hzero hwindow)))

/-! ## The operations (R103 to R106) -/

theorem exec_crcInit (s : State) : exec .crcInit s = .next (respond { s with crc_reg := CRC_START } .ok .none) := rfl

theorem exec_crcUpdate (b : U8) (s : State) :
    exec (.crcUpdate b) s = .next (respond { s with crc_reg := crcByte s.crc_reg b } .ok .none) := rfl

theorem exec_crcRead (s : State) : exec .crcRead s = .next (respond s .ok (.crc16 (s.crc_reg ^^^ CRC_XOROUT))) := rfl

theorem exec_crc16 (bs : Bytes) (s : State) : exec (.crc16 bs) s =
    .next (respond { s with crc_reg := crcBytes CRC_START bs } .ok (.crc16 (Machine.crc16 bs))) := rfl

/-- Settles O12. -/
theorem crcInitWritesStartValue : Obligations.CrcInitWritesStartValue := exec_crcInit

/-- Settles O14. -/
theorem crcReadReturnsComplement : Obligations.CrcReadReturnsComplement := exec_crcRead

/-- R100's choice, with the data bit compared to register bit 0 and not XORed with it. -/
theorem crcBit_eq_ite_ne (r : U16) (d : Bool) :
    crcBit r d = if d ≠ r.getLsbD 0 then (r >>> 1) ^^^ CRC_POLY else r >>> 1 := by
  simp only [crcBit, Bool.xor_iff_ne]

/-- A sequence of registers, each one bit step after the last, is the fold of the bit step. -/
theorem foldl_crcBit_of_trace {b : U8} {r : Nat → U16} {m : Nat}
    (hr : ∀ i, i < m → r (i + 1) = crcBit (r i) (b.getLsbD i)) :
    ∀ n ≤ m, ((List.range n).map b.getLsbD).foldl crcBit (r 0) = r n := by
  intro n hn
  induction n with
  | zero => rfl
  | succ n ih =>
    rw [List.range_succ, List.map_append, List.foldl_append, ih (Nat.le_of_succ_le hn)]
    exact (hr n hn).symm

/-- Settles O13: the eight registers are the trace of the byte step. -/
theorem crcUpdateShiftsOneByte : Obligations.CrcUpdateShiftsOneByte := by
  intro b s r hstart hr
  have hbyte : crcByte (r 0) b = r 8 :=
    foldl_crcBit_of_trace (fun i hi => (hr i hi).trans (crcBit_eq_ite_ne _ _).symm) 8 (Nat.le_refl 8)
  rw [exec_crcUpdate, ← hstart, hbyte]
  rfl

/-- Complementing a CRC gives the register back. -/
theorem crc16_xor_xorOut (bs : Bytes) : crc16 bs ^^^ CRC_XOROUT = crcBytes CRC_START bs := by
  rw [crc16, BitVec.xor_assoc, BitVec.xor_self, BitVec.xor_zero]

/-- Settles O15. -/
theorem crc16ReturnsCrcOfSequence : Obligations.Crc16ReturnsCrcOfSequence := fun bs s => by
  rw [exec_crc16, ← crc16_xor_xorOut]
  rfl

end Sys2Proof.Machine
end

section
/-! PROOFS for spec/41_encoder.md: the bytes ENCODE answers (O21) and how many there are (O22). -/

namespace Sys2Proof.Machine

/-! ## The parts of an encoding -/

/-- R75's byte as a sum: the two nibbles do not overlap. -/
theorem flagsEndpointByte_eq_ofNat (flags endpoint : U4) :
    flagsEndpointByte flags endpoint = BitVec.ofNat 8 (flags.toNat * 16 + endpoint.toNat) := by
  revert flags endpoint; decide

theorem encodeTrailers_of_emit {P : Params} (hP : P.encTrailers = .emit) (f : Frame) :
    encodeTrailers P f = (if TS f.flags then LE32 f.timestamp else []) ++ (if RS f.flags then [f.rssi] else []) := by
  simp only [encodeTrailers, hP, emit]

theorem encodeTrailers_of_omitted {P : Params} (hP : P.encTrailers = .omitted) (f : Frame) : encodeTrailers P f = [] := by
  simp only [encodeTrailers, hP]

/-- The bytes ENCODE takes the CRC over: all it has emitted but the SOF (R127). Under OMIT they are not R78's
`coveredBytes`, as the trailers are missing from them. -/
def encodedBody (P : Params) (f : Frame) : Bytes :=
  [flagsEndpointByte f.flags f.endpoint, f.message_id, BitVec.ofNat 8 f.payload.length] ++ f.payload ++ encodeTrailers P f

/-- The CRC field of a frame with these flags over these bytes, empty without CRC16Field (R127). -/
def crcField (flags : U4) (body : Bytes) : Bytes := if CR flags then LE16 (crc16 body) else []

theorem encodeFrame_eq (P : Params) (f : Frame) :
    encodeFrame P f = SOF :: (encodedBody P f ++ crcField f.flags (encodedBody P f)) := by
  have hout : emit (emit (encodeHeader f) f.payload) (encodeTrailers P f) = SOF :: encodedBody P f := rfl
  simp only [encodeFrame, crcField, hout]
  split
  · rfl
  · rw [List.append_nil]

/-! ## The answer of ENCODE (R121 to R127) -/

theorem encodeOp_of_body {P : Params} {f : Frame} {body : Bytes} (hN : f.payload.length ≤ 255)
    (hbody : body = encodedBody P f) (s : State) :
    encodeOp P f s = .next (respond s .ok (.bytes (SOF :: (body ++ crcField f.flags body)))) := by
  rw [encodeOp_of_wf (Frame.wf_iff.mpr hN), encodeFrame_eq, hbody]

/-- Settles O21: this instance emits the trailers, and an OMIT instance has none in the bytes the CRC covers. -/
theorem encodeReturnsWireBytes : Obligations.EncodeReturnsWireBytes := by
  intro f s header trailers hN hheader htrailers
  rw [← flagsEndpointByte_eq_ofNat] at hheader
  subst hheader htrailers
  constructor
  · intro covered hcovered
    have hbody : covered = encodedBody Config.params f := by
      rw [hcovered, encodedBody, encodeTrailers_of_emit rfl]
      rfl
    exact encodeOp_of_body hN hbody s
  · intro P covered hP hcovered
    have hbody : covered = encodedBody P f := by
      rw [hcovered, encodedBody, encodeTrailers_of_omitted hP, List.append_nil]
    exact encodeOp_of_body hN hbody s

/-! ## The length of an encoding (R128) -/

theorem crcField_length (flags : U4) (body : Bytes) : (crcField flags body).length = crcLen flags := by
  unfold crcField crcLen; split <;> rfl

theorem encodeTrailers_length_of_emit {P : Params} (hP : P.encTrailers = .emit) (f : Frame) :
    (encodeTrailers P f).length = tsLen f.flags + rssiLen f.flags := by
  rw [encodeTrailers_of_emit hP, List.length_append, tsLen, rssiLen]
  congr 1 <;> split <;> rfl

theorem encodeFrame_length (P : Params) (f : Frame) :
    (encodeFrame P f).length = 4 + f.payload.length + (encodeTrailers P f).length + crcLen f.flags := by
  simp only [encodeFrame_eq, encodedBody, List.length_cons, List.length_append, List.length_nil, crcField_length]
  omega

theorem encodeFrame_length_of_emit {P : Params} (hP : P.encTrailers = .emit) (f : Frame) :
    (encodeFrame P f).length = claimedLen f.flags f.payload.length := by
  rw [encodeFrame_length, encodeTrailers_length_of_emit hP, claimedLen, HDR_LEN, Nat.add_assoc _ (tsLen _)]

theorem encodeFrame_length_of_omitted {P : Params} (hP : P.encTrailers = .omitted) (f : Frame) :
    (encodeFrame P f).length = 4 + f.payload.length + crcLen f.flags := by
  rw [encodeFrame_length, encodeTrailers_of_omitted hP]; rfl

/-- R128's range. It does not depend on P_ENC_TRAILERS, for OMIT only shortens the encoding. -/
theorem encodeFrame_length_bounds {f : Frame} (hN : f.payload.length ≤ 255) (P : Params) :
    4 ≤ (encodeFrame P f).length ∧ (encodeFrame P f).length ≤ 266 := by
  have ht := tsLen_le f.flags
  have hr := rssiLen_le f.flags
  have hc := crcLen_le f.flags
  cases hP : P.encTrailers with
  | emit => rw [encodeFrame_length_of_emit hP]; simp only [claimedLen, HDR_LEN]; omega
  | omitted => rw [encodeFrame_length_of_omitted hP]; omega

/-- Settles O22: R128's t and r are those of R77 under EMIT and 0 under OMIT. -/
theorem encodedLength : Obligations.EncodedLength := by
  intro P f hN
  refine ⟨?_, fun hP => encodeFrame_length_of_emit hP f, encodeFrame_length_bounds hN P⟩
  cases hP : P.encTrailers with
  | emit => simp [encodeFrame_length_of_emit hP, claimedLen, HDR_LEN, tsLen, rssiLen, crcLen, TS, RS, CR]
  | omitted => simp [encodeFrame_length_of_omitted hP, crcLen, CR]

end Sys2Proof.Machine
end

section
/-! PROOFS for spec/42_decoder.md, the layer below the obligations: what one iteration (R145) makes of the bytes at the
cursor, one lemma for each of its outcomes. -/

namespace Sys2Proof.Machine

/-! ## The flags/endpoint byte (R75, R77, R84) -/

@[simp] theorem flagsOf_flagsEndpointByte (flags ep : U4) : flagsOf (flagsEndpointByte flags ep) = flags := by
  revert flags ep; decide

@[simp] theorem endpointOf_flagsEndpointByte (flags ep : U4) : endpointOf (flagsEndpointByte flags ep) = ep := by
  revert flags ep; decide

theorem TS_flagsOf (b1 : U8) : TS (flagsOf b1) = b1.getLsbD 5 := by revert b1; decide

theorem RS_flagsOf (b1 : U8) : RS (flagsOf b1) = b1.getLsbD 6 := by revert b1; decide

theorem CR_flagsOf (b1 : U8) : CR (flagsOf b1) = b1.getLsbD 7 := by revert b1; decide

theorem endpointOf_toNat (b1 : U8) : (endpointOf b1).toNat = b1.toNat % 16 := by
  simp [endpointOf]

theorem flagsOf_toNat (b1 : U8) : (flagsOf b1).toNat = b1.toNat / 16 := by
  revert b1; decide

theorem endpointOk_iff {b1 : U8} : endpointOk b1 ↔ validEndpoint (endpointOf b1) = true := by
  rw [validEndpoint_iff_toNat, endpointOf_toNat, endpointOk]

theorem claimedLen_flagsOf (b1 : U8) (N : Nat) : claimedLen (flagsOf b1) N = 4 + N + trailerBytes b1 := by
  simp only [claimedLen, HDR_LEN, tsLen, rssiLen, crcLen, trailerBytes, TS_flagsOf, RS_flagsOf, CR_flagsOf]
  omega

/-! ## Trailers read back: the converses of `bufSlice_of_readTimestamp`, `bufSlice_of_readRssi`, `bufSlice_of_readCrc` -/

theorem ofNat_fromLE_LE32 (ts : U32) : BitVec.ofNat 32 (fromLE (LE32 ts)) = ts := by
  apply BitVec.eq_of_toNat_eq
  simp [LE32, fromLE, Nat.shiftRight_eq_div_pow]
  omega

theorem LE16_injective : Function.Injective LE16 := by
  intro v w h
  simp only [LE16, List.cons.injEq, and_true] at h
  obtain ⟨hlow, hhigh⟩ := h
  have hlow' := congrArg BitVec.toNat hlow
  have hhigh' := congrArg BitVec.toNat hhigh
  simp [Nat.shiftRight_eq_div_pow] at hlow' hhigh'
  apply BitVec.eq_of_toNat_eq
  omega

theorem readTimestamp_of_bufSlice {s : State} {flags : U4} {p : Nat} {ts : U32}
    (h : bufSlice s p (tsLen flags) = some (if TS flags then LE32 ts else [])) :
    readTimestamp s flags p = some (if TS flags then ts else 0) := by
  cases hf : TS flags with
  | false => simp [readTimestamp, hf]
  | true =>
    simp only [tsLen, hf, if_true] at h
    simp [readTimestamp, hf, h, ofNat_fromLE_LE32]

theorem readRssi_of_bufSlice {s : State} {flags : U4} {p : Nat} {rssi : U8}
    (h : bufSlice s p (rssiLen flags) = some (if RS flags then [rssi] else [])) :
    readRssi s flags p = some (if RS flags then rssi else 0) := by
  cases hf : RS flags with
  | false => simp [readRssi, hf]
  | true =>
    simp only [rssiLen, hf, if_true] at h
    obtain ⟨b, cs, hb, -, hbs⟩ := bufSlice_succ_eq_some.mp h
    simp [readRssi, hf, hb, (List.cons.inj hbs).1]

theorem readCrc_of_bufSlice {s : State} {p : Nat} {v : U16} (h : bufSlice s p 2 = some (LE16 v)) :
    readCrc s p = some v := by
  obtain ⟨lo, cs, hlo, hcs, -⟩ := bufSlice_succ_eq_some.mp h
  obtain ⟨hi, ds, hhi, -, -⟩ := bufSlice_succ_eq_some.mp hcs
  have hread : readCrc s p = some (lo.zeroExtend 16 ||| (hi.zeroExtend 16 <<< 8)) := by simp [readCrc, hlo, hhi]
  have hsame := (bufSlice_of_readCrc hread).symm.trans h
  rw [hread, LE16_injective (Option.some.inj hsame)]

/-! ## A candidate that is dropped before its fields are looked at (R145, R151, R152, R154) -/

/-- Where a pass stands at `xs`, `ys` and more, `ys` is read at `xs.length` behind the cursor. -/
theorem StandsAt.slice_mid {s : State} {pre xs ys zs : Bytes} {p n : Nat} (h : StandsAt s pre (xs ++ (ys ++ zs)))
    (hp : p = s.dec_off + xs.length) (hn : ys.length = n) : bufSlice s p n = some ys := by
  rw [hp, ← hn, h.slice _ _ (by simp)]
  simp

theorem scanIter_of_not_sof {s : State} {pre rest : Bytes} {b0 : U8} (h : StandsAt s pre (b0 :: rest)) (hb : b0 ≠ SOF)
    (P : Params) : scanIter P s s.dec_off = some (dropped .framing (s.dec_off + 1)) := by
  have h0 : bufRead s s.dec_off = some b0 := h.read 0
  simp [scanIter, h0, hb]

theorem scanIter_of_sof_last {s : State} {pre : Bytes} (h : StandsAt s pre [SOF]) (P : Params) :
    scanIter P s s.dec_off = some (dropped .truncated (s.dec_off + 1)) := by
  have h0 : bufRead s s.dec_off = some SOF := h.read 0
  simp [scanIter, h0, h.len]

theorem scanIter_of_sof_cons {s : State} {pre rest : Bytes} {b1 : U8} (h : StandsAt s pre (SOF :: b1 :: rest))
    (P : Params) : scanIter P s s.dec_off = scanHeader P s s.dec_off b1 := by
  have h0 : bufRead s s.dec_off = some SOF := h.read 0
  have h1 : bufRead s (s.dec_off + 1) = some b1 := h.read 1
  simp [scanIter, h0, h1, h.len]

theorem scanIter_of_invalid_endpoint {s : State} {pre rest : Bytes} {b1 : U8}
    (h : StandsAt s pre (SOF :: b1 :: rest)) (hep : validEndpoint (endpointOf b1) = false) (P : Params) :
    scanIter P s s.dec_off = some (dropped .unknownEndpoint (s.dec_off + 1)) := by
  rw [scanIter_of_sof_cons h]
  exact if_pos hep

theorem scanIter_of_short_header {s : State} {pre rest : Bytes} {b1 : U8}
    (h : StandsAt s pre (SOF :: b1 :: rest)) (hep : validEndpoint (endpointOf b1) = true) (hlen : rest.length < 2)
    (P : Params) : scanIter P s s.dec_off = some (dropped .truncated (s.dec_off + 1)) := by
  have hshort : s.dec_len < s.dec_off + 4 := by rw [h.len]; simp; omega
  rw [scanIter_of_sof_cons h]
  simp [scanHeader, hep, hshort]

/-- With a valid endpoint and a whole header, the claimed length decides whether the fields are read (R154). -/
theorem scanIter_of_header {s : State} {pre rest : Bytes} {b1 msg n : U8}
    (h : StandsAt s pre (SOF :: b1 :: msg :: n :: rest)) (hep : validEndpoint (endpointOf b1) = true) (P : Params) :
    scanIter P s s.dec_off =
      if 4 + rest.length < claimedLen (flagsOf b1) n.toNat then some (dropped .truncated (s.dec_off + 1))
      else scanBody P s s.dec_off (flagsOf b1) (endpointOf b1) msg n.toNat (claimedLen (flagsOf b1) n.toNat) := by
  have hmsg : bufRead s (s.dec_off + 2) = some msg := h.read 2
  have hn : bufRead s (s.dec_off + 3) = some n := h.read 3
  have hlen : s.dec_len = s.dec_off + (4 + rest.length) := by rw [h.len]; simp; omega
  rw [scanIter_of_sof_cons h]
  simp [scanHeader, hep, hmsg, hn, hlen]

/-! ## A whole candidate (R153, R155 to R158, R163) -/

/-- A candidate on the wire: the SOF, the bytes R78 says its CRC covers and, where CRC16Field is set, the CRC field
received, which need not be theirs. -/
def candidateBytes (f : Frame) (crc : U16) : Bytes :=
  SOF :: (coveredBytes f ++ if CR f.flags then LE16 crc else [])

theorem timestampField_length (flags : U4) (ts : U32) : (if TS flags then LE32 ts else []).length = tsLen flags := by
  unfold tsLen; split <;> rfl

theorem rssiField_length (flags : U4) (rssi : U8) : (if RS flags then [rssi] else []).length = rssiLen flags := by
  unfold rssiLen; split <;> rfl

theorem coveredBytes_length (f : Frame) :
    (coveredBytes f).length = 3 + f.payload.length + tsLen f.flags + rssiLen f.flags := by
  simp only [coveredBytes, List.length_append, timestampField_length, rssiField_length, List.length_cons, List.length_nil]

theorem candidateBytes_length (f : Frame) (crc : U16) :
    (candidateBytes f crc).length = claimedLen f.flags f.payload.length := by
  have hcrc : (if CR f.flags then LE16 crc else []).length = crcLen f.flags := by unfold crcLen; split <;> rfl
  simp only [candidateBytes, List.length_cons, List.length_append, coveredBytes_length, hcrc, claimedLen, HDR_LEN]
  omega

/-- What the iteration makes of a whole candidate: the CRC, where there is one, decides (R155, R163). -/
def candidateResult (P : Params) (o : Nat) (f : Frame) (crc : U16) : IterResult :=
  if CR f.flags ∧ crc16 (coveredBytes f) ≠ crc then dropped .integrity (o + (candidateBytes f crc).length)
  else
    { code := acceptCode (messageValid P f.endpoint f.message_id)
      frame := some { decodedOf P f with crc := if CR f.flags then crc else 0 }
      next := o + (candidateBytes f crc).length }

/-- The fields of a whole candidate are read from where ENCODE writes them. -/
theorem scanBody_of_candidate {s : State} {pre rest : Bytes} {f : Frame} {crc : U16}
    (h : StandsAt s pre (candidateBytes f crc ++ rest)) (P : Params) :
    scanBody P s s.dec_off f.flags f.endpoint f.message_id f.payload.length (claimedLen f.flags f.payload.length) =
      some (candidateResult P s.dec_off f crc) := by
  have hT := timestampField_length f.flags f.timestamp
  have hR := rssiField_length f.flags f.rssi
  have hlen := coveredBytes_length f
  rw [candidateBytes, List.cons_append, List.append_assoc] at h
  have hcovered : bufSlice s (s.dec_off + 1) (3 + (f.payload.length + tsLen f.flags + rssiLen f.flags)) =
      some (coveredBytes f) :=
    h.slice_mid (xs := [SOF]) rfl (by omega)
  have hcrc : CR f.flags = true →
      readCrc s (s.dec_off + 4 + (f.payload.length + tsLen f.flags + rssiLen f.flags)) = some crc := fun hf => by
    rw [if_pos hf] at h
    exact readCrc_of_bufSlice
      (h.slice_mid (xs := SOF :: coveredBytes f) (by simp only [List.length_cons]; omega) rfl)
  simp only [coveredBytes, List.append_assoc] at h
  have hpayload : bufSlice s (s.dec_off + 4) f.payload.length = some f.payload :=
    h.slice_mid (xs := [SOF, _, _, _]) rfl rfl
  have hts := readTimestamp_of_bufSlice (p := s.dec_off + 4 + f.payload.length) (ts := f.timestamp) <|
    StandsAt.slice_mid (pre := pre) (xs := [SOF, _, _, _] ++ f.payload) (by simpa using h)
      (by simp; omega) hT
  have hrs := readRssi_of_bufSlice (p := s.dec_off + 4 + (f.payload.length + tsLen f.flags)) (rssi := f.rssi) <|
    StandsAt.slice_mid (pre := pre) (xs := [SOF, _, _, _] ++ f.payload ++ (if TS f.flags then LE32 f.timestamp else []))
      (by simpa using h) (by simp only [List.length_append, hT]; simp; omega) hR
  simp only [scanBody, hpayload, hts, hrs, Option.bind_eq_bind, Option.bind_some, candidateResult,
    candidateBytes_length]
  split
  next hf =>
    simp only [hcovered, hcrc hf, Option.bind_some, hf, true_and]
    split
    · rfl
    · simp [acceptFrame, acceptCode, decodedOf, hf, claimedLen, HDR_LEN, crcLen]
      omega
  next hf =>
    simp [acceptFrame, acceptCode, decodedOf, hf, claimedLen, HDR_LEN, crcLen]
    omega

/-- The length byte holds the length of a payload a Frame can have (R32, R125). -/
theorem toNat_payload_length {f : Frame} (h : f.wf = true) :
    (BitVec.ofNat 8 f.payload.length).toNat = f.payload.length := by
  have := Frame.wf_iff.mp h
  rw [BitVec.toNat_ofNat]
  omega

theorem decodable_of_length_byte {f : Frame} {n : U8} (hN : f.payload.length = n.toNat)
    (hep : validEndpoint f.endpoint = true) : Decodable f :=
  ⟨Frame.wf_iff.mpr (hN ▸ Nat.le_of_lt_succ n.isLt), hep⟩

theorem scanIter_of_candidate {s : State} {pre rest : Bytes} {f : Frame} {crc : U16}
    (h : StandsAt s pre (candidateBytes f crc ++ rest)) (hf : Decodable f) (P : Params) :
    scanIter P s s.dec_off = some (candidateResult P s.dec_off f crc) := by
  obtain ⟨hwf, hep⟩ := hf
  have hlen := candidateBytes_length f crc
  have hbody := scanBody_of_candidate h P
  simp only [candidateBytes, coveredBytes, List.cons_append, List.nil_append, List.append_assoc] at h hlen
  rw [scanIter_of_header h (by simpa using hep), flagsOf_flagsEndpointByte, endpointOf_flagsEndpointByte,
    toNat_payload_length hwf, if_neg (by simp only [List.length_cons, List.length_append] at hlen ⊢; omega)]
  exact hbody

theorem candidateResult_of_crc_ne {f : Frame} {crc : U16} (hf : CR f.flags = true) (hcrc : crc16 (coveredBytes f) ≠ crc)
    (P : Params) (o : Nat) :
    candidateResult P o f crc = dropped .integrity (o + (candidateBytes f crc).length) :=
  if_pos ⟨hf, hcrc⟩

theorem candidateResult_of_crc_eq {f : Frame} {crc : U16} (hcrc : CR f.flags = true → crc = crc16 (coveredBytes f))
    (P : Params) (o : Nat) :
    candidateResult P o f crc =
      { code := acceptCode (messageValid P f.endpoint f.message_id)
        frame := some (decodedOf P f)
        next := o + (candidateBytes f crc).length } := by
  rw [candidateResult, if_neg fun h => h.2 (hcrc h.1).symm]
  cases hf : CR f.flags with
  | false => simp [decodedOf, hf]
  | true => simp [decodedOf, hf, hcrc hf]

/-- Without CRC16Field a whole candidate is kept. -/
theorem scanIter_of_coveredBytes {s : State} {pre rest : Bytes} {f : Frame}
    (h : StandsAt s pre (SOF :: (coveredBytes f ++ rest))) (hf : Decodable f) (hCR : CR f.flags = false) (P : Params) :
    scanIter P s s.dec_off = some
      { code := acceptCode (messageValid P f.endpoint f.message_id)
        frame := some (decodedOf P f)
        next := s.dec_off + claimedLen f.flags f.payload.length } := by
  have hcand : StandsAt s pre (candidateBytes f 0 ++ rest) := by
    simpa [candidateBytes, hCR] using h
  rw [scanIter_of_candidate hcand hf P, candidateResult_of_crc_eq (by simp [hCR]), candidateBytes_length]

/-- ENCODE writes a whole candidate with the CRC of its bytes, unless it leaves out a trailer the flags announce
(R126, R127). -/
theorem encodeFrame_eq_candidateBytes {P : Params} {f : Frame}
    (h : P.encTrailers = .emit ∨ (TS f.flags = false ∧ RS f.flags = false)) :
    encodeFrame P f = candidateBytes f (crc16 (coveredBytes f)) := by
  have htrailers : encodeTrailers P f =
      (if TS f.flags then LE32 f.timestamp else []) ++ (if RS f.flags then [f.rssi] else []) := by
    cases hP : P.encTrailers with
    | emit => exact encodeTrailers_of_emit hP f
    | omitted =>
      obtain ⟨hts, hrs⟩ := h.resolve_left (by simp [hP])
      simp [encodeTrailers_of_omitted hP, hts, hrs]
  have hbody : encodedBody P f = coveredBytes f := by
    rw [encodedBody, htrailers, coveredBytes, ← List.append_assoc]
  rw [encodeFrame_eq, hbody]
  rfl

/-! ## Which bytes are a whole candidate -/

/-- The fields of a candidate as they are received (R75, R76). -/
def receivedFrame (b1 msg : U8) (payload : Bytes) (ts : U32) (rssi : U8) : Frame :=
  { flags := flagsOf b1, endpoint := endpointOf b1, message_id := msg, payload := payload, timestamp := ts, rssi := rssi }

theorem coveredBytes_receivedFrame {payload : Bytes} {n : U8} (hN : payload.length = n.toNat) (b1 msg : U8) (ts : U32)
    (rssi : U8) :
    coveredBytes (receivedFrame b1 msg payload ts rssi) =
      b1 :: msg :: n :: (payload ++
        ((if TS (flagsOf b1) then LE32 ts else []) ++ (if RS (flagsOf b1) then [rssi] else []))) := by
  have hn : BitVec.ofNat 8 payload.length = n := by rw [hN, BitVec.ofNat_toNat, BitVec.setWidth_eq]
  simp only [coveredBytes, receivedFrame, flagsEndpointByte_flagsOf_endpointOf, hn, List.append_assoc]
  rfl

theorem exists_timestampField {flags : U4} {bs : Bytes} (h : bs.length = tsLen flags) :
    ∃ ts, (if TS flags then LE32 ts else []) = bs := by
  cases hf : TS flags with
  | false => exact ⟨0, (List.length_eq_zero_iff.mp (by simpa [tsLen, hf] using h)).symm⟩
  | true => exact ⟨_, LE32_fromLE (by simpa [tsLen, hf] using h)⟩

theorem exists_rssiField {flags : U4} {bs : Bytes} (h : bs.length = rssiLen flags) :
    ∃ rssi, (if RS flags then [rssi] else []) = bs := by
  cases hf : RS flags with
  | false => exact ⟨0, (List.length_eq_zero_iff.mp (by simpa [rssiLen, hf] using h)).symm⟩
  | true =>
    obtain ⟨rssi, rfl⟩ := List.length_eq_one_iff.mp (show bs.length = 1 by simpa [rssiLen, hf] using h)
    exact ⟨rssi, rfl⟩

theorem exists_LE16 {bs : Bytes} (h : bs.length = 2) : ∃ crc, LE16 crc = bs := by
  obtain ⟨lo, hi, rfl⟩ := List.length_eq_two.mp h
  exact ⟨_, LE16_of_bytes lo hi⟩

/-- Where a header claims no more bytes than follow it, but for the CRC, the bytes begin with those some frame covers. -/
theorem exists_coveredBytes_append {b1 n : U8} {rest : Bytes} (msg : U8)
    (hlen : n.toNat + tsLen (flagsOf b1) + rssiLen (flagsOf b1) ≤ rest.length) :
    ∃ f : Frame, f.flags = flagsOf b1 ∧ f.endpoint = endpointOf b1 ∧ f.payload.length = n.toNat ∧
      coveredBytes f ++ rest.drop (n.toNat + tsLen (flagsOf b1) + rssiLen (flagsOf b1)) = b1 :: msg :: n :: rest := by
  have hN : (rest.take n.toNat).length = n.toNat := by rw [List.length_take]; omega
  obtain ⟨ts, hts⟩ := exists_timestampField (flags := flagsOf b1) (bs := (rest.drop n.toNat).take (tsLen (flagsOf b1)))
    (by rw [List.length_take, List.length_drop]; omega)
  obtain ⟨rssi, hrssi⟩ := exists_rssiField (flags := flagsOf b1)
    (bs := ((rest.drop n.toNat).drop (tsLen (flagsOf b1))).take (rssiLen (flagsOf b1)))
    (by rw [List.length_take, List.length_drop, List.length_drop]; omega)
  refine ⟨receivedFrame b1 msg (rest.take n.toNat) ts rssi, rfl, rfl, hN, ?_⟩
  rw [coveredBytes_receivedFrame hN, hts, hrssi, ← List.drop_drop, ← List.drop_drop]
  simp only [List.cons_append, List.append_assoc, List.take_append_drop]

theorem exists_coveredBytes {b1 n : U8} {body : Bytes} (msg : U8)
    (hlen : body.length = n.toNat + tsLen (flagsOf b1) + rssiLen (flagsOf b1)) :
    ∃ f : Frame, f.flags = flagsOf b1 ∧ f.endpoint = endpointOf b1 ∧ f.payload.length = n.toNat ∧
      coveredBytes f = b1 :: msg :: n :: body := by
  obtain ⟨f, hflags, hendpoint, hN, hcovered⟩ := exists_coveredBytes_append msg hlen.ge
  rw [List.drop_eq_nil_of_le hlen.le, List.append_nil] at hcovered
  exact ⟨f, hflags, hendpoint, hN, hcovered⟩

end Sys2Proof.Machine
end

section
/-! PROOFS for spec/42_decoder.md: what one DEC_STEP does with the bytes at the cursor (O29 to O33, O42, O44). -/

namespace Sys2Proof.Machine

/-- DEC_STEP in a pass leaves what R146 says of its iteration's result. -/
theorem exec_decStep_of_scanIter {s : State} {r : IterResult} {advance : Nat} (hp : s.dec_phase = .scan)
    (hr : scanIter Config.params s s.dec_off = some r) (hnext : r.next = s.dec_off + advance) :
    exec .decStep s = .next (afterIteration s r.code r.frame advance) := by
  obtain ⟨code, frame, next⟩ := r
  subst hnext
  refine (decStepOp_of_scan hp hr).trans ?_
  cases frame <;>
    simp [respond, applyIter, moveCursor, pushFrame?, pushFrame, pushEvent, iterEvent, afterIteration, hp]

/-! ## Candidates dropped with an advance by 1 -/

/-- Settles O30. -/
theorem unknownEndpointAdvancesByOne : Obligations.UnknownEndpointAdvancesByOne := by
  intro s pre rest b1 h hep
  have hep' : validEndpoint (endpointOf b1) = false := by rwa [endpointOk_iff, Bool.not_eq_true] at hep
  exact exec_decStep_of_scanIter h.scanning (scanIter_of_invalid_endpoint h hep' _) rfl

/-- Settles O29: one clause for each of the three reads that R151 and R154 guard. -/
theorem truncatedAdvancesByOne : Obligations.TruncatedAdvancesByOne := by
  refine ⟨fun s pre h => ?_, fun s pre rest b1 h hep hlen => ?_, fun s pre rest b1 msg n h hep hlen => ?_⟩
  · exact exec_decStep_of_scanIter h.scanning (scanIter_of_sof_last h _) rfl
  · exact exec_decStep_of_scanIter h.scanning (scanIter_of_short_header h (endpointOk_iff.mp hep) hlen _) rfl
  · have hr := (scanIter_of_header h (endpointOk_iff.mp hep) Config.params).trans
      (if_pos (by rw [claimedLen_flagsOf]; omega))
    exact exec_decStep_of_scanIter h.scanning hr rfl

/-! ## Whole candidates -/

/-- Two bytes that are not the CRC of the covered bytes before them, as many as those claim, are dropped with
INTEGRITY. -/
theorem exec_decStep_of_crc_ne {s : State} {pre covered field rest : Bytes} {b1 n : U8}
    (h : StandsAt s pre (SOF :: (covered ++ field ++ rest))) (hb1 : covered[0]? = some b1) (hn : covered[2]? = some n)
    (hep : validEndpoint (endpointOf b1) = true) (hCR : CR (flagsOf b1) = true) (hfield : field.length = 2)
    (hlen : covered.length + 3 = claimedLen (flagsOf b1) n.toNat) (hne : field ≠ LE16 (crc16 covered)) :
    exec .decStep s = .next (afterIteration s .integrity none (covered.length + 3)) := by
  obtain ⟨crc, rfl⟩ := exists_LE16 hfield
  obtain ⟨b, msg, n', body, rfl⟩ : ∃ b msg n' body, covered = b :: msg :: n' :: body := by
    match covered, hn with
    | b :: msg :: n' :: body, _ => exact ⟨b, msg, n', body, rfl⟩
  cases hb1
  cases hn
  obtain ⟨f, hflags, hendpoint, hN, hcovered⟩ := exists_coveredBytes (b1 := b1) (n := n) (body := body) msg
    (by simp only [claimedLen, HDR_LEN, crcLen, hCR, if_true, List.length_cons] at hlen; omega)
  have hf : CR f.flags = true := hflags ▸ hCR
  have hdec : Decodable f := decodable_of_length_byte hN (hendpoint ▸ hep)
  rw [← hcovered] at h hne
  have hcand : StandsAt s pre (candidateBytes f crc ++ rest) := by
    rwa [candidateBytes, if_pos hf]
  have hr := (scanIter_of_candidate hcand hdec Config.params).trans <|
    congrArg some (candidateResult_of_crc_ne hf (fun heq => hne (by rw [heq])) _ _)
  refine exec_decStep_of_scanIter h.scanning hr ?_
  rw [hlen, ← hflags, ← hN, ← candidateBytes_length]
  rfl

/-- Settles O31. -/
theorem integritySkipsClaimedLength : Obligations.IntegritySkipsClaimedLength := by
  intro s pre body rest b1 msg n lo hi h hep hCR hlen hne
  have hlen' : ([b1, msg, n] ++ body).length + 3 = 4 + n.toNat + trailerBytes b1 := by simp; omega
  rw [← hlen']
  exact exec_decStep_of_crc_ne h rfl rfl (endpointOk_iff.mp hep) ((CR_flagsOf b1).trans hCR) rfl
    (hlen'.trans (claimedLen_flagsOf b1 n.toNat).symm) hne

/-- R153 by the endpoint's number. -/
theorem messageValid_eq_ite (P : Params) (ep : U4) (msg : U8) :
    messageValid P ep msg =
      if ep.toNat = 1 then P.msgTable .devMgmt msg else if ep.toNat = 2 then P.msgTable .radioLink msg else false := by
  have hcases : (endpointId? ep).bind tableOf =
      if ep.toNat = 1 then some .devMgmt else if ep.toNat = 2 then some .radioLink else none := by
    revert ep; decide
  rw [messageValid, hcases]
  split_ifs <;> rfl

/-- The record of R157 for fields received with their CRC. -/
theorem decodedOf_receivedFrame {P : Params} {b1 msg : U8} {payload : Bytes} {ts : U32} {rssi : U8} {crc : U16}
    (hcrc : b1.getLsbD 7 = true → crc = crc16 (coveredBytes (receivedFrame b1 msg payload ts rssi))) :
    decodedOf P (receivedFrame b1 msg payload ts rssi) =
      { flags := flagsOf b1, endpoint := endpointOf b1, message_id := msg
        message_valid := messageValid P (endpointOf b1) msg, payload := payload
        timestamp := if b1.getLsbD 5 then ts else 0, rssi := if b1.getLsbD 6 then rssi else 0
        crc := if b1.getLsbD 7 then crc else 0 } := by
  have hfield : (if CR (flagsOf b1) then crc16 (coveredBytes (receivedFrame b1 msg payload ts rssi)) else 0) =
      if b1.getLsbD 7 then crc else 0 := by
    rw [CR_flagsOf]
    split
    next h7 => rw [hcrc h7]
    next => rfl
  rw [← hfield, ← TS_flagsOf, ← RS_flagsOf]
  rfl

/-- Settles O32: the bytes are those of a candidate with the fields of the record. -/
theorem wholeFrameIsAccepted : Obligations.WholeFrameIsAccepted := by
  intro s pre payload rest b1 msg n ts rssi crc trailers valid htrailers h hep hN hcrc hvalid
  have hcovered : coveredBytes (receivedFrame b1 msg payload ts rssi) = b1 :: msg :: n :: (payload ++ trailers) := by
    rw [coveredBytes_receivedFrame hN, TS_flagsOf, RS_flagsOf, htrailers]
  have hcrc' : b1.getLsbD 7 = true → crc = crc16 (coveredBytes (receivedFrame b1 msg payload ts rssi)) := by
    rw [hcovered]; exact hcrc
  have hcand : StandsAt s pre (candidateBytes (receivedFrame b1 msg payload ts rssi) crc ++ rest) := by
    rw [candidateBytes, hcovered, receivedFrame, CR_flagsOf, List.cons_append, List.append_assoc]
    simpa only [List.cons_append, List.append_assoc] using (show StandsAt s pre (SOF :: _) from h)
  have hr := (scanIter_of_candidate hcand (decodable_of_length_byte hN (endpointOk_iff.mp hep)) Config.params).trans <|
    congrArg some (candidateResult_of_crc_eq (fun hf => hcrc' ((CR_flagsOf b1).symm.trans hf)) _ _)
  have hlen : (candidateBytes (receivedFrame b1 msg payload ts rssi) crc).length = 4 + n.toNat + trailerBytes b1 := by
    rw [candidateBytes_length, ← hN]
    exact claimedLen_flagsOf b1 payload.length
  have hvalid' : messageValid Config.params (endpointOf b1) msg = valid := by
    rw [hvalid, messageValid_eq_ite, endpointOf_toNat]
  have hflags : BitVec.ofNat 4 (b1.toNat / 16) = flagsOf b1 := by rw [← flagsOf_toNat]; simp
  have hendpoint : BitVec.ofNat 4 (b1.toNat % 16) = endpointOf b1 := by rw [← endpointOf_toNat]; simp
  rw [hflags, hendpoint, ← hvalid', ← decodedOf_receivedFrame hcrc', ← hlen]
  exact exec_decStep_of_scanIter h.scanning hr rfl

/-! ## One corrupted byte (R169) -/

/-- A byte step from a zero register tells bytes apart: one that leads back to zero is zero, a burst of 8 bits. -/
theorem eq_zero_of_crcByte_zero {c : U8} (h : crcByte 0 c = 0) : c = 0 := by
  have hbits := eq_false_of_burst (k := 0) h fun i hi => by
    have := (List.getElem?_eq_some_iff.mp hi).1
    rw [bitsOfByte_length] at this
    omega
  refine BitVec.eq_of_getLsbD_eq fun i hi => ?_
  rw [hbits _ (List.mem_map.mpr ⟨i, List.mem_range.mpr hi, rfl⟩)]
  exact BitVec.getLsbD_zero.symm

theorem crcByte_byte_injective (r : U16) : Function.Injective (crcByte r) := by
  intro a b h
  refine BitVec.xor_eq_zero_iff.mp (eq_zero_of_crcByte_zero ?_)
  calc crcByte 0 (a ^^^ b)
      = crcByte (r ^^^ r) (a ^^^ b) := by rw [BitVec.xor_self]; rfl
    _ = crcByte r a ^^^ crcByte r b := crcByte_xor ..
    _ = 0 := BitVec.xor_eq_zero_iff.mpr h

theorem crcBytes_injective (s : Bytes) : Function.Injective fun r : U16 => crcBytes r s := by
  induction s with
  | nil => exact Function.injective_id
  | cons b s ih => exact ih.comp (crcByte_injective b)

/-- R110 for one byte. -/
theorem crc16_ne_of_byte_ne {x y : U8} (h : x ≠ y) (xs ys : Bytes) :
    crc16 (xs ++ x :: ys) ≠ crc16 (xs ++ y :: ys) := by
  intro heq
  have hreg := crcBytes_eq_of_crc16_eq heq
  simp only [crcBytes_append, crcBytes_cons] at hreg
  exact h (crcByte_byte_injective _ (crcBytes_injective ys hreg))

theorem crc16_set_ne {bs : Bytes} {k : Nat} {x : U8} (hk : k < bs.length) (h : bs[k]? ≠ some x) :
    crc16 (bs.set k x) ≠ crc16 bs := by
  rw [List.getElem?_eq_getElem hk] at h
  conv_rhs => rw [← List.take_append_drop k bs, List.drop_eq_getElem_cons hk]
  rw [List.set_eq_take_append_cons_drop, if_pos hk]
  exact crc16_ne_of_byte_ne (fun hx => h (congrArg some hx.symm)) _ _

/-- The claimed length tells the flags apart that it depends on: no two sets of trailers take as many bytes (R79). -/
theorem CR_eq_of_claimedLen_eq {flags flags' : U4} {N : Nat} (h : claimedLen flags N = claimedLen flags' N) :
    CR flags = CR flags' := by
  have htable : ∀ a b : U4, tsLen a + rssiLen a + crcLen a = tsLen b + rssiLen b + crcLen b → CR a = CR b := by decide
  exact htable _ _ (by simp only [claimedLen] at h; omega)

/-- The flags/endpoint byte after a change: a changed one is to keep the endpoint valid and the claimed length. -/
theorem flagsEndpointByte_of_set {f : Frame} {j : Nat} {x : U8} (hep : validEndpoint f.endpoint = true)
    (hx : j = 0 → endpointOk x ∧ claimedLen (flagsOf x) f.payload.length = claimedLen f.flags f.payload.length) :
    ∃ b1, ((coveredBytes f).set j x)[0]? = some b1 ∧ validEndpoint (endpointOf b1) = true ∧
      claimedLen (flagsOf b1) f.payload.length = claimedLen f.flags f.payload.length := by
  cases j with
  | zero =>
    obtain ⟨hok, hclaimed⟩ := hx rfl
    exact ⟨x, rfl, endpointOk_iff.mp hok, hclaimed⟩
  | succ j => exact ⟨flagsEndpointByte f.flags f.endpoint, rfl, by simpa using hep, by simp⟩

/-- Settles O42: a changed covered byte changes the CRC of the covered bytes and not the CRC received, and a changed CRC
byte the other way round. -/
theorem oneByteCorruptionIsDetected : Obligations.OneByteCorruptionIsDetected := by
  intro f s pre rest k x hdec hCR hk hk0 hk3 hx hk1 h
  obtain ⟨hwf, hep⟩ := hdec
  obtain ⟨j, rfl⟩ := Nat.exists_eq_succ_of_ne_zero hk0
  have hlen := encodeFrame_length_of_emit (P := Config.params) rfl f
  have hN := toNat_payload_length hwf
  rw [encodeFrame_of_emit rfl, if_pos hCR] at hk hx h hlen ⊢
  rw [List.set_cons_succ, List.cons_append] at h
  rw [List.getElem?_cons_succ] at hx
  simp only [List.length_cons, List.length_append] at hk hlen ⊢
  obtain hj | hj := Nat.lt_or_ge j (coveredBytes f).length
  · rw [List.set_append_left j x hj] at h
    rw [List.getElem?_append_left hj] at hx
    obtain ⟨b1, hb1, hep, hclaimed⟩ := flagsEndpointByte_of_set hep fun hj0 => hk1 (congrArg _ hj0)
    have hn : ((coveredBytes f).set j x)[2]? = some (BitVec.ofNat 8 f.payload.length) := by
      rw [List.getElem?_set_ne (by omega)]; rfl
    have hne : LE16 (crc16 (coveredBytes f)) ≠ LE16 (crc16 ((coveredBytes f).set j x)) := fun heq =>
      crc16_set_ne hj hx (LE16_injective heq).symm
    have hstep := exec_decStep_of_crc_ne h hb1 hn hep ((CR_eq_of_claimedLen_eq hclaimed).trans hCR) rfl
      (by rw [List.length_set, hN, hclaimed, ← hlen]; rfl) hne
    rwa [List.length_set] at hstep
  · rw [List.set_append_right j x hj] at h
    rw [List.getElem?_append_right hj] at hx
    have hne : (LE16 (crc16 (coveredBytes f))).set (j - (coveredBytes f).length) x ≠ LE16 (crc16 (coveredBytes f)) :=
      fun heq => hx (by rw [← heq, List.getElem?_set_self (by omega)])
    exact exec_decStep_of_crc_ne h rfl rfl (by simpa using hep) (by simpa using hCR) List.length_set
      (by rw [hN, flagsOf_flagsEndpointByte, ← hlen]; rfl) hne

/-! ## The Reserved flag (R164) -/

/-- f with the Reserved bit of its flags flipped (R82). -/
def flipReserved (f : Frame) : Frame := { f with flags := f.flags ^^^ 1 }

theorem flagsOf_flipReserved (b1 : U8) : flagsOf (b1 ^^^ 0x10) = flagsOf b1 ^^^ 1 := by revert b1; decide

theorem endpointOf_flipReserved (b1 : U8) : endpointOf (b1 ^^^ 0x10) = endpointOf b1 := by revert b1; decide

theorem flagsEndpointByte_flipReserved (flags ep : U4) :
    flagsEndpointByte (flags ^^^ 1) ep = flagsEndpointByte flags ep ^^^ 0x10 := by revert flags ep; decide

theorem TS_flipReserved (flags : U4) : TS (flags ^^^ 1) = TS flags := by revert flags; decide

theorem RS_flipReserved (flags : U4) : RS (flags ^^^ 1) = RS flags := by revert flags; decide

theorem CR_flipReserved (flags : U4) : CR (flags ^^^ 1) = CR flags := by revert flags; decide

theorem claimedLen_flipReserved (flags : U4) (N : Nat) : claimedLen (flags ^^^ 1) N = claimedLen flags N := by
  simp only [claimedLen, tsLen, rssiLen, crcLen, TS_flipReserved, RS_flipReserved, CR_flipReserved]

theorem coveredBytes_flipReserved {f : Frame} {rest : Bytes} {b1 : U8} {bs : Bytes}
    (h : coveredBytes f ++ rest = b1 :: bs) : coveredBytes (flipReserved f) ++ rest = (b1 ^^^ 0x10) :: bs := by
  simp only [coveredBytes, List.cons_append, List.cons.injEq] at h
  obtain ⟨rfl, rfl⟩ := h
  simp only [coveredBytes, flipReserved, flagsEndpointByte_flipReserved, TS_flipReserved, RS_flipReserved]
  rfl

theorem decodedOf_flipReserved (P : Params) {f : Frame} (hCR : CR f.flags = false) :
    decodedOf P (flipReserved f) = { decodedOf P f with flags := (decodedOf P f).flags ^^^ 1 } := by
  simp only [decodedOf, flipReserved, TS_flipReserved, RS_flipReserved, CR_flipReserved, hCR]
  rfl

/-- Two passes that stand at the same candidate without CRC, but for its Reserved bit, find the same. -/
theorem scanIter_flipReserved {s s' : State} {pre pre' rest : Bytes} {b1 : U8}
    (h : StandsAt s pre (SOF :: b1 :: rest)) (h' : StandsAt s' pre' (SOF :: (b1 ^^^ 0x10) :: rest))
    (hCR : CR (flagsOf b1) = false) (P : Params) :
    ∃ (code : EventCode) (fr : Option DecodedFrame) (advance : Nat),
      scanIter P s s.dec_off = some ⟨code, fr, s.dec_off + advance⟩ ∧
      scanIter P s' s'.dec_off =
        some ⟨code, fr.map fun d => { d with flags := d.flags ^^^ 1 }, s'.dec_off + advance⟩ := by
  have hep' := endpointOf_flipReserved b1
  cases hep : validEndpoint (endpointOf b1) with
  | false =>
    exact ⟨_, _, _, scanIter_of_invalid_endpoint h hep P, scanIter_of_invalid_endpoint h' (hep' ▸ hep) P⟩
  | true =>
    match rest with
    | [] | [_] =>
      exact ⟨_, _, _, scanIter_of_short_header h hep (by simp) P, scanIter_of_short_header h' (hep' ▸ hep) (by simp) P⟩
    | msg :: n :: rest =>
      have hF' : claimedLen (flagsOf (b1 ^^^ 0x10)) n.toNat = claimedLen (flagsOf b1) n.toNat := by
        rw [flagsOf_flipReserved, claimedLen_flipReserved]
      obtain hlt | hle := Nat.lt_or_ge (4 + rest.length) (claimedLen (flagsOf b1) n.toNat)
      · have hr := (scanIter_of_header h hep P).trans (if_pos hlt)
        have hr' := (scanIter_of_header h' (hep' ▸ hep) P).trans (if_pos (hF' ▸ hlt))
        exact ⟨_, _, _, hr, hr'⟩
      · obtain ⟨f, hflags, hendpoint, hN, hcovered⟩ := exists_coveredBytes_append (b1 := b1) (n := n) (rest := rest) msg
          (by simp only [claimedLen, HDR_LEN] at hle; omega)
        have hdec : Decodable f := decodable_of_length_byte hN (hendpoint ▸ hep)
        have hf : CR f.flags = false := hflags ▸ hCR
        rw [← hcovered] at h
        rw [← coveredBytes_flipReserved hcovered] at h'
        have hr' := scanIter_of_coveredBytes h' hdec ((CR_flipReserved _).trans hf) P
        rw [decodedOf_flipReserved P hf, flipReserved, claimedLen_flipReserved] at hr'
        exact ⟨_, _, _, scanIter_of_coveredBytes h hdec hf P, hr'⟩

/-- Settles O44. -/
theorem reservedFlagHasNoEffect : Obligations.ReservedFlagHasNoEffect := by
  refine ⟨claimedLen_flipReserved, fun s pre rest b1 h hCR => ?_⟩
  have h' : StandsAt { s with dec_buf := pre ++ 0xA5 :: (b1 ^^^ 0x10) :: rest } pre (SOF :: (b1 ^^^ 0x10) :: rest) :=
    { scanning := h.scanning
      buffer := rfl
      len_eq := by rw [h.len_eq, h.buffer]; simp
      cursor := h.cursor }
  obtain ⟨code, fr, advance, hr, hr'⟩ := scanIter_flipReserved h h' ((CR_flagsOf b1).trans hCR) Config.params
  exact ⟨code, fr, advance, exec_decStep_of_scanIter h.scanning hr rfl, exec_decStep_of_scanIter h'.scanning hr' rfl⟩

/-! ## Any iteration -/

/-- Settles O33: every iteration of a well-formed pass is defined, moves forward, and keeps a frame or none. -/
theorem decStepAdvancesWithinBuffer : Obligations.DecStepAdvancesWithinBuffer := by
  intro s hp hwf hlt
  obtain ⟨r, hr⟩ := scanIter_defined (P := Config.params) hwf hlt
  obtain ⟨hforward, hinside⟩ := scanIter_next hr
  have hkeeps : r.frame.isSome = keepsFrame r.code := by
    obtain ⟨hnone, hk⟩ | ⟨d, hsome, -, hcode⟩ := scanIter_frame hr
    · rw [hnone, hk]; rfl
    · rw [hsome, hcode, keepsFrame_acceptCode]; rfl
  have hnext : r.next = s.dec_off + (r.next - s.dec_off) := by omega
  refine ⟨_, r.code, r.frame, exec_decStep_of_scanIter hp hr hnext, ?_, ?_, rfl, rfl, rfl, rfl, rfl, rfl, hkeeps, rfl, rfl⟩
  · simp only [afterIteration]; omega
  · simp only [afterIteration]; omega

end Sys2Proof.Machine
end

section
/-! PROOFS for spec/42_decoder.md: what several iterations of a pass do, and so DECODE (O25 to O28, O34, O36, O37, O38,
O40, O41). -/

namespace Sys2Proof.Machine

/-! ## Several iterations (R144) -/

/-- `Iterations P k s t`: from s the pass takes k iterations, to t. -/
inductive Iterations (P : Params) : Nat → State → State → Prop where
  | refl (s : State) : Iterations P 0 s s
  | step {k : Nat} {s t : State} {r : IterResult} (hp : s.dec_phase = .scan) (hr : scanIter P s s.dec_off = some r)
      (h : Iterations P k (applyIter s r) t) : Iterations P (k + 1) s t

theorem Iterations.trans {P : Params} {j k : Nat} {s t u : State} (h : Iterations P j s t) (h' : Iterations P k t u) :
    Iterations P (j + k) s u := by
  induction h with
  | refl => rwa [Nat.zero_add]
  | step hp hr _ ih => rw [Nat.add_right_comm]; exact .step hp hr (ih h')

/-- The loop of DECODE takes them. -/
theorem Iterations.decLoop_add {P : Params} {k : Nat} {s t : State} (h : Iterations P k s t) (n : Nat) :
    decLoop P (k + n) s = decLoop P n t := by
  induction h with
  | refl => rw [Nat.zero_add]
  | step hp hr _ ih => rw [Nat.add_right_comm, decLoop_succ_of_scan hp hr, ih]

/-- So do DEC_STEPs, each with its response. -/
theorem Iterations.runOps_decSteps {k : Nat} {s t : State} (h : Iterations Config.params k s t) (rs : List Response) :
    ∃ rs', runOps (List.replicate k .decStep) (setResponses rs s) = .next (setResponses rs' t) := by
  induction h generalizing rs with
  | refl s => exact ⟨rs, rfl⟩
  | step hp hr _ ih =>
    obtain ⟨rs₁, hstep⟩ := exec_decStep_setResponses hp hr rs
    obtain ⟨rs', hrun⟩ := ih rs₁
    exact ⟨rs', (runOps_cons_of_next hstep _).trans hrun⟩

theorem Iterations.crc_reg {P : Params} {k : Nat} {s t : State} (h : Iterations P k s t) : t.crc_reg = s.crc_reg := by
  induction h with
  | refl => rfl
  | step _ _ _ ih => rw [ih, applyIter_crc_reg]

/-- One event each. -/
theorem Iterations.events_length {P : Params} {k : Nat} {s t : State} (h : Iterations P k s t) :
    t.dec_events.length = s.dec_events.length + k := by
  induction h with
  | refl => rfl
  | step _ _ _ ih => rw [ih, applyIter_dec_events, List.length_append, List.length_singleton]; omega

/-- Each moves the cursor by at least 1. -/
theorem Iterations.le_cursor {P : Params} {k : Nat} {s t : State} (h : Iterations P k s t) :
    s.dec_off + k ≤ t.dec_off := by
  induction h with
  | refl => exact Nat.le_refl _
  | step _ hr _ ih =>
    obtain ⟨hforward, -⟩ := scanIter_next hr
    rw [applyIter_dec_off] at ih
    omega

/-! ## A pass that may have ended -/

/-- A pass with `pre` behind the cursor and `rest` before it: as `StandsAt`, but DONE where nothing is left (R148). -/
structure PassAt (s : State) (pre rest : Bytes) : Prop where
  phase : s.dec_phase = if rest = [] then .done else .scan
  buffer : s.dec_buf = pre ++ rest
  len_eq : s.dec_len = s.dec_buf.length
  cursor : s.dec_off = pre.length

theorem PassAt.standsAt {s : State} {pre rest : Bytes} (h : PassAt s pre rest) (hne : rest ≠ []) : StandsAt s pre rest :=
  ⟨h.phase.trans (if_neg hne), h.buffer, h.len_eq, h.cursor⟩

theorem StandsAt.passAt {s : State} {pre rest : Bytes} (h : StandsAt s pre rest) (hne : rest ≠ []) : PassAt s pre rest :=
  ⟨h.scanning.trans (if_neg hne).symm, h.buffer, h.len_eq, h.cursor⟩

theorem passAt_loadPass (buf : Bytes) (s : State) : PassAt (loadPass buf s) [] buf where
  phase := by simp
  buffer := rfl
  len_eq := rfl
  cursor := rfl

/-- An iteration that takes the bytes of `chunk`. -/
theorem PassAt.applyIter {s : State} {pre chunk rest : Bytes} {r : IterResult} (h : PassAt s pre (chunk ++ rest))
    (hne : chunk ≠ []) (hnext : r.next = s.dec_off + chunk.length) : PassAt (applyIter s r) (pre ++ chunk) rest where
  phase := by
    have hp : s.dec_phase = .scan := h.phase.trans (if_neg (by simp [hne]))
    have hend : r.next = s.dec_len ↔ rest = [] := by
      rw [hnext, h.len_eq, h.buffer, h.cursor, ← List.length_eq_zero_iff]
      simp only [List.length_append]
      omega
    rw [applyIter_dec_phase, hp]
    simp only [hend]
  buffer := by rw [applyIter_dec_buf, h.buffer, List.append_assoc]
  len_eq := by rw [applyIter_dec_len, applyIter_dec_buf, h.len_eq]
  cursor := by rw [applyIter_dec_off, hnext, h.cursor, List.length_append]

/-- DECODE of a buffer is the iterations that reach its end. -/
theorem decodeOp_of_iterations {P : Params} {buf : Bytes} {s t : State} {k : Nat} (hle : buf.length ≤ P.bufMax)
    (h : Iterations P k (loadPass buf s) t) (hend : PassAt t buf []) :
    decodeOp P buf s = .next (respond t .ok (.frames t.dec_out t.dec_events)) := by
  refine decodeOp_of_decLoop hle ?_
  have hk : k ≤ buf.length := by simpa [hend.cursor] using h.le_cursor
  obtain ⟨n, hn⟩ := Nat.exists_eq_add_of_le hk
  rw [hn, h.decLoop_add]
  cases n with
  | zero => rfl
  | succ n => exact decLoop_succ_of_ne_scan (by rw [hend.phase]; simp) P n

/-! ## Noise (R160) -/

/-- The events of a run of k bytes other than the SOF, from offset o on. -/
def framingEvents (o k : Nat) : List Event := (List.range k).map fun i => { code := .framing, offset := o + i }

theorem framingEvents_succ (o k : Nat) :
    framingEvents o (k + 1) = { code := .framing, offset := o } :: framingEvents (o + 1) k := by
  simp [framingEvents, List.range_succ_eq_map, Nat.add_assoc, Nat.add_comm 1]

theorem iterations_of_noise {P : Params} {noise : Bytes} {s : State} {pre rest : Bytes}
    (h : PassAt s pre (noise ++ rest)) (hnoise : ∀ b ∈ noise, b ≠ SOF) :
    ∃ t, Iterations P noise.length s t ∧ PassAt t (pre ++ noise) rest ∧ t.dec_out = s.dec_out ∧
      t.dec_events = s.dec_events ++ framingEvents s.dec_off noise.length := by
  induction noise generalizing s pre with
  | nil => exact ⟨s, .refl s, by simpa using h, rfl, by simp [framingEvents]⟩
  | cons b noise ih =>
    obtain ⟨hb, hnoise⟩ := List.forall_mem_cons.mp hnoise
    have hstands := h.standsAt (List.cons_ne_nil _ _)
    have hr := scanIter_of_not_sof hstands hb P
    obtain ⟨t, hiter, hpass, hout, hevents⟩ :=
      ih (PassAt.applyIter (chunk := [b]) (r := dropped .framing (s.dec_off + 1)) h (List.cons_ne_nil _ _) rfl) hnoise
    refine ⟨t, .step hstands.scanning hr hiter, by simpa using hpass, ?_, ?_⟩
    · simp [hout, dropped]
    · simp [hevents, framingEvents_succ, iterEvent, dropped]

/-- Settles O28: the second clause is the run's iterations, taken by DEC_STEPs. -/
theorem framingAdvancesByOne : Obligations.FramingAdvancesByOne := by
  refine ⟨fun s pre rest b0 h hb => ?_, fun s pre noise rest h hnoise => ?_⟩
  · exact exec_decStep_of_scanIter h.scanning (scanIter_of_not_sof h hb _) rfl
  · cases noise with
    | nil => exact ⟨s, rfl, by simp, rfl, rfl, rfl, rfl⟩
    | cons b noise =>
      obtain ⟨t, hiter, hpass, hout, hevents⟩ := iterations_of_noise (h.passAt (List.cons_ne_nil _ _)) hnoise
      obtain ⟨rs, hrun⟩ := hiter.runOps_decSteps s.responses
      refine ⟨setResponses rs t, hrun, hevents, hout, ?_, ?_, hiter.crc_reg⟩
      · exact hpass.cursor.trans (by rw [List.length_append, h.cursor])
      · exact hpass.buffer.trans (by rw [List.append_assoc, h.buffer])

/-! ## Encoded frames (R167, R168) -/

/-- A whole encoding at the cursor is one iteration, which keeps its frame. -/
theorem iterations_of_encodeFrame {P : Params} {f : Frame} {s : State} {pre rest : Bytes}
    (hP : P.encTrailers = .emit ∨ (TS f.flags = false ∧ RS f.flags = false)) (hf : Decodable f)
    (h : PassAt s pre (encodeFrame P f ++ rest)) :
    ∃ t, Iterations P 1 s t ∧ PassAt t (pre ++ encodeFrame P f) rest ∧ t.dec_out = s.dec_out ++ [decodedOf P f] ∧
      t.dec_events = s.dec_events ++
        [{ code := acceptCode (messageValid P f.endpoint f.message_id), offset := s.dec_off }] := by
  rw [encodeFrame_eq_candidateBytes hP] at h ⊢
  have hstands := h.standsAt (List.cons_ne_nil _ _)
  have hr := (scanIter_of_candidate hstands hf P).trans
    (congrArg some (candidateResult_of_crc_eq (fun _ => rfl) P s.dec_off))
  exact ⟨_, .step hstands.scanning hr (.refl _), h.applyIter (List.cons_ne_nil _ _) rfl,
    by simp, by simp [iterEvent]⟩

/-- Frames with noise before each of them: an iteration for each frame and each byte of noise. -/
theorem iterations_of_parts {P : Params} {parts : List (Bytes × Frame)} {s : State} {pre rest : Bytes}
    (hP : P.encTrailers = .emit) (hparts : ∀ p ∈ parts, (∀ b ∈ p.1, b ≠ SOF) ∧ Decodable p.2)
    (h : PassAt s pre ((parts.flatMap fun p => p.1 ++ encodeFrame P p.2) ++ rest)) :
    ∃ t, Iterations P (parts.length + (parts.map fun p => p.1.length).sum) s t ∧
      PassAt t (pre ++ parts.flatMap fun p => p.1 ++ encodeFrame P p.2) rest ∧
      t.dec_out = s.dec_out ++ parts.map fun p => decodedOf P p.2 := by
  induction parts generalizing s pre with
  | nil => exact ⟨s, .refl s, by simpa using h, by simp⟩
  | cons p parts ih =>
    obtain ⟨⟨hnoise, hf⟩, hparts⟩ := List.forall_mem_cons.mp hparts
    simp only [List.flatMap_cons, List.append_assoc] at h
    obtain ⟨t, hiter, hpass, hout, -⟩ := iterations_of_noise (P := P) h hnoise
    obtain ⟨u, hiter', hpass', hout', -⟩ := iterations_of_encodeFrame (.inl hP) hf hpass
    obtain ⟨v, hiter'', hpass'', hout''⟩ := ih hparts hpass'
    refine ⟨v, ?_, by simpa using hpass'', by simp [hout'', hout', hout]⟩
    have hcount : p.1.length + 1 + (parts.length + (parts.map fun p => p.1.length).sum) =
        (p :: parts).length + ((p :: parts).map fun p => p.1.length).sum := by simp; omega
    exact hcount ▸ (hiter.trans hiter').trans hiter''

/-- Settles O41. -/
theorem noiseBetweenFramesLosesNone : Obligations.NoiseBetweenFramesLosesNone := by
  intro P parts tail s hP hparts htail hle
  obtain ⟨t, hiter, hpass, hout⟩ := iterations_of_parts hP hparts (passAt_loadPass _ s)
  obtain ⟨u, hiter', hpass', hout', -⟩ := iterations_of_noise (P := P) (rest := []) (by simpa using hpass) htail
  have hall := hiter.trans hiter'
  refine ⟨_, decodeOp_of_iterations hle hall (by simpa using hpass'), ?_, ?_⟩
  · simp [hout', hout]
  · simpa using hall.events_length

/-- Settles O40. -/
theorem concatenatedFramesDecodeInOrder : Obligations.ConcatenatedFramesDecodeInOrder := by
  intro P f1 f2 s hP hf1 hf2 hle
  obtain ⟨t, hiter, hpass, hout, hevents⟩ := iterations_of_encodeFrame (.inl hP) hf1 (passAt_loadPass _ s)
  obtain ⟨u, hiter', hpass', hout', hevents'⟩ :=
    iterations_of_encodeFrame (rest := []) (.inl hP) hf2 (by simpa using hpass)
  refine ⟨_, decodeOp_of_iterations hle (hiter.trans hiter') (by simpa using hpass'), ?_, ?_⟩
  · simp [hout', hout]
  · simp [hevents', hevents, hpass.cursor]

/-- Under OMIT an encoding whose flags announce a timestamp or RSSI claims more bytes than it has (R126, R154). -/
theorem scanIter_of_encodeFrame_omitted {P : Params} {f : Frame} {s : State} {pre : Bytes}
    (hP : P.encTrailers = .omitted) (hflags : TS f.flags = true ∨ RS f.flags = true) (hf : Decodable f)
    (h : StandsAt s pre (encodeFrame P f)) : scanIter P s s.dec_off = some (dropped .truncated (s.dec_off + 1)) := by
  have hclaims : (encodeFrame P f).length < claimedLen f.flags f.payload.length := by
    rw [encodeFrame_length_of_omitted hP, claimedLen, HDR_LEN]
    obtain hts | hrs := hflags
    · simp only [tsLen, hts, if_true]; omega
    · simp only [rssiLen, hrs, if_true]; omega
  rw [encodeFrame_eq, encodedBody] at h hclaims
  simp only [List.cons_append, List.nil_append, List.length_cons] at h hclaims
  rw [scanIter_of_header h (by simpa using hf.2), flagsOf_flagsEndpointByte, toNat_payload_length hf.1, if_pos (by omega)]

/-- The events of a pass are only ever added to. -/
theorem decLoop_events_head {P : Params} {n : Nat} {s t : State} {e : Event} (h : decLoop P n s = some t)
    (he : s.dec_events.head? = some e) : t.dec_events.head? = some e :=
  decLoop_induct (φ := fun s => s.dec_events.head? = some e)
    (fun s r hs _ _ => by simp [List.head?_append, hs]) he h

/-- Settles O38: the pass of a whole encoding is one iteration, and that of one with trailers left out begins with
TRUNCATED. -/
theorem decodeOfEncodeRoundTrip : Obligations.DecodeOfEncodeRoundTrip := by
  intro P f s hf hle
  by_cases hP : P.encTrailers = .emit ∨ (TS f.flags = false ∧ RS f.flags = false)
  · obtain ⟨t, hiter, hpass, hout, hevents⟩ :=
      iterations_of_encodeFrame (rest := []) hP hf (by simpa using passAt_loadPass (encodeFrame P f) s)
    refine ⟨_, decodeOp_of_iterations hle hiter hpass, fun _ => ⟨by simpa using hout, by simpa using hevents⟩, ?_⟩
    intro homit hflags
    obtain ⟨hts, hrs⟩ := hP.resolve_left (by simp [homit])
    simp [hts, hrs] at hflags
  · obtain ⟨t, ht⟩ := decodeOp_completes P (encodeFrame P f) s
    refine ⟨t, ht, fun h => absurd h hP, fun homit hflags => ?_⟩
    obtain ⟨hlt, -⟩ | ⟨-, u, hu, rfl⟩ := decodeOp_next ht
    · omega
    have hstands := (passAt_loadPass (encodeFrame P f) s).standsAt (by rw [encodeFrame_eq]; simp)
    have hr := scanIter_of_encodeFrame_omitted homit hflags hf hstands
    obtain ⟨m, hm⟩ : ∃ m, (encodeFrame P f).length = m + 1 := ⟨_, by rw [encodeFrame_eq]; rfl⟩
    rw [hm, decLoop_succ_of_scan hstands.scanning hr] at hu
    exact decLoop_events_head (t := u) hu rfl

/-! ## DECODE of any buffer -/

/-- The loop that DECODE runs over a buffer within P_BUF_MAX ends the pass, with the buffer as it was loaded and at most
as many events as bytes (R144). -/
theorem decLoop_loadPass {buf : Bytes} {s u : State} (hle : buf.length ≤ Config.params.bufMax)
    (hu : decLoop Config.params buf.length (loadPass buf s) = some u) :
    u.dec_phase = .done ∧ u.dec_buf = buf ∧ u.dec_len = buf.length ∧ u.dec_off = buf.length ∧
      u.dec_events.length ≤ buf.length := by
  have hload := (inv_decoderInvariant Config.params).load buf s hle
  have hidle : (loadPass buf s).dec_phase ≠ .idle := by
    rw [loadPass_dec_phase]; split <;> simp
  obtain ⟨k, t, -, hk, hloop, -, hdone, hevents⟩ := decLoop_eq_decSteps [] hload hidle (Nat.le_add_left buf.length _)
  cases hloop.symm.trans hu
  obtain ⟨hinv, hbuf⟩ : Inv Config.params u ∧ u.dec_buf = buf :=
    decLoop_induct (φ := fun s => Inv Config.params s ∧ s.dec_buf = buf)
      (fun s r ⟨hinv, hbuf⟩ hp hr => ⟨(inv_decoderInvariant _).iter s r hinv hp hr, by simpa using hbuf⟩)
      ⟨hload, rfl⟩ hloop
  have hlen : u.dec_len = buf.length := hinv.len_eq.trans (congrArg _ hbuf)
  exact ⟨hdone, hbuf, hlen, (hinv.done_eq hdone).trans hlen, by simpa [hevents] using hk⟩

/-- Settles O34. -/
theorem decodeScansWholeBuffer : Obligations.DecodeScansWholeBuffer := by
  intro buf s hle
  obtain ⟨u, hu⟩ := decLoop_of_inv buf.length ((inv_decoderInvariant Config.params).load buf s hle)
  obtain ⟨hdone, hbuf, hlen, hoff, hevents⟩ := decLoop_loadPass hle hu
  obtain ⟨hcrc, hport, hresponses⟩ := decLoop_frame hu
  exact ⟨_, decodeOp_of_decLoop hle hu, hdone, hbuf, hlen, hoff, hevents, hcrc, hport, by simp [hresponses]⟩

/-- Settles O37. -/
theorem phaseTransitions : Obligations.PhaseTransitions := by
  constructor
  · intro i s t h
    obtain ⟨⟨buf, hlt, rfl | rfl⟩, rfl⟩ | ⟨u, res, hu, rfl⟩ := exec_next h
    · exact (if_pos hlt).symm
    · exact (if_pos hlt).symm
    · cases hu with
      | crcInit | crcUpdate | crcRead | crc16 | encode | decStatus => rfl
      | decStart buf _ hle => exact (if_neg hle.not_gt).symm
      | decStepOutside _ hp => exact (if_neg hp).symm
      | decStep _ r hp hr => simp [hp]
      | decode buf _ _ hle hu =>
        obtain ⟨hdone, -⟩ := decLoop_loadPass hle hu
        exact hdone.trans (if_neg hle.not_gt).symm
  · intro s t rest hport h
    cases (step_of_reset hport).symm.trans h
    rfl

/-! ## DEC_START, DEC_STEP outside a pass and DEC_STATUS -/

/-- Settles O25. -/
theorem decStartLoadsPass : Obligations.DecStartLoadsPass := by
  intro buf s hle
  refine (decStartOp_of_le hle s).trans ?_
  simp only [respond, loadPass, List.length_eq_zero_iff]

/-- Settles O26. -/
theorem overlongBufferIsRefused : Obligations.OverlongBufferIsRefused :=
  fun _ s hlt => ⟨decStartOp_of_lt hlt s, decodeOp_of_lt hlt s⟩

/-- Settles O27. -/
theorem decStepOutsidePassIsNoOp : Obligations.DecStepOutsidePassIsNoOp :=
  fun _ hp => decStepOp_of_ne_scan hp

/-- Settles O36. -/
theorem decStatusReturnsRegisters : Obligations.DecStatusReturnsRegisters := fun _ => rfl

end Sys2Proof.Machine
end

section
/-! PROOFS for spec/42_decoder.md: what a pass does not depend on, each by two passes run side by side: the message
table (R153; O43) and the state before the pass (R166; O45). -/

namespace Sys2Proof.Machine

/-- Two passes run side by side stay related, where each iteration of the one has an iteration of the other that keeps
them so: the counterpart of `decLoop_induct` for two runs. -/
theorem decLoop_simulation {P Q : Params} {R : State → State → Prop}
    (hphase : ∀ s s', R s s' → s'.dec_phase = s.dec_phase)
    (hstep : ∀ s s' r, R s s' → scanIter P s s.dec_off = some r →
      ∃ r', scanIter Q s' s'.dec_off = some r' ∧ R (applyIter s r) (applyIter s' r'))
    {n : Nat} {s s' t : State} (hs : R s s') (h : decLoop P n s = some t) :
    ∃ t', decLoop Q n s' = some t' ∧ R t t' := by
  induction n generalizing s s' with
  | zero => cases h; exact ⟨s', rfl, hs⟩
  | succ n ih =>
    by_cases hp : s.dec_phase = .scan
    · simp only [decLoop, hp, if_true, iterate, Option.bind_eq_some_iff, Option.map_eq_some_iff] at h
      obtain ⟨u, ⟨r, hr, rfl⟩, hu⟩ := h
      obtain ⟨r', hr', hR⟩ := hstep s s' r hs hr
      obtain ⟨t', ht', hR'⟩ := ih hR hu
      exact ⟨t', (decLoop_succ_of_scan ((hphase s s' hs).trans hp) hr' n).trans ht', hR'⟩
    · rw [decLoop_succ_of_ne_scan hp] at h
      cases h
      exact ⟨s', decLoop_succ_of_ne_scan (by rwa [hphase _ s' hs]) Q n, hs⟩

/-! ## The message table -/

/-- ACCEPT_UNKNOWN_MSG read as ACCEPT, as `blurEvent` does. -/
def blurCode (code : EventCode) : EventCode := if code = .acceptUnknownMsg then .accept else code

theorem blurCode_acceptCode (v : Bool) : blurCode (acceptCode v) = .accept := by cases v <;> rfl

theorem blurEvent_iterEvent (r : IterResult) (o : Nat) :
    blurEvent (iterEvent r o) = { code := blurCode r.code, offset := o } := rfl

/-- An iteration's result without what the message table decides (R153). -/
def blurResult (r : IterResult) : IterResult :=
  { code := blurCode r.code, frame := r.frame.map eraseValid, next := r.next }

theorem blurResult_acceptFrame (P Q : Params) (o len : Nat) (flags ep : U4) (msg : U8) (payload : Bytes) (ts : U32)
    (rssi : U8) (crc : U16) :
    blurResult (acceptFrame P o len flags ep msg payload ts rssi crc) =
      blurResult (acceptFrame Q o len flags ep msg payload ts rssi crc) := by
  have hcode : blurCode (acceptCode (messageValid P ep msg)) = blurCode (acceptCode (messageValid Q ep msg)) := by
    rw [blurCode_acceptCode, blurCode_acceptCode]
  simp only [blurResult, IterResult.mk.injEq]
  exact ⟨hcode, rfl, rfl⟩

theorem scanBody_blurResult (P Q : Params) (s : State) (o : Nat) (flags ep : U4) (msg : U8) (N F : Nat) :
    (scanBody P s o flags ep msg N F).map blurResult = (scanBody Q s o flags ep msg N F).map blurResult := by
  simp only [scanBody, Option.bind_eq_bind, Option.map_bind, Function.comp_def, apply_ite (Option.map blurResult),
    Option.map_some, blurResult_acceptFrame P Q]

theorem scanIter_blurResult (P Q : Params) (s : State) (o : Nat) :
    (scanIter P s o).map blurResult = (scanIter Q s o).map blurResult := by
  simp only [scanIter, scanHeader, Option.bind_eq_bind, Option.map_bind, Function.comp_def,
    apply_ite (Option.map blurResult), scanBody_blurResult P Q]

/-- The same pass but for what the message table decides. -/
structure SameButValidity (s s' : State) : Prop where
  phase : s'.dec_phase = s.dec_phase
  buffer : s'.dec_buf = s.dec_buf
  len : s'.dec_len = s.dec_len
  cursor : s'.dec_off = s.dec_off
  events : s'.dec_events.map blurEvent = s.dec_events.map blurEvent
  frames : s'.dec_out.map eraseValid = s.dec_out.map eraseValid

theorem SameButValidity.applyIter {s s' : State} {r r' : IterResult} (h : SameButValidity s s')
    (hr : blurResult r' = blurResult r) : SameButValidity (applyIter s r) (applyIter s' r') := by
  simp only [blurResult, IterResult.mk.injEq] at hr
  obtain ⟨hcode, hframe, hnext⟩ := hr
  have hframes : r'.frame.toList.map eraseValid = r.frame.toList.map eraseValid := by
    rw [← Option.toList_map, hframe, Option.toList_map]
  have hevent : blurEvent (iterEvent r' s'.dec_off) = blurEvent (iterEvent r s.dec_off) := by
    rw [blurEvent_iterEvent, blurEvent_iterEvent, hcode, h.cursor]
  exact
    { phase := by simp only [applyIter_dec_phase, hnext, h.len, h.phase]
      buffer := by simp only [applyIter_dec_buf, h.buffer]
      len := by simp only [applyIter_dec_len, h.len]
      cursor := by simp only [applyIter_dec_off, hnext]
      events := by simp only [applyIter_dec_events, List.map_append, h.events, List.map_singleton, hevent]
      frames := by simp only [applyIter_dec_out, List.map_append, h.frames, hframes] }

theorem decLoop_sameButValidity {P : Params} (Q : Params) {n : Nat} {s s' t : State} (hs : SameButValidity s s')
    (h : decLoop P n s = some t) : ∃ t', decLoop Q n s' = some t' ∧ SameButValidity t t' :=
  decLoop_simulation (fun _ _ h => h.phase)
    (fun s s' r hs hr => by
      have hblur := scanIter_blurResult Q P s s.dec_off
      rw [hr, Option.map_some, Option.map_eq_some_iff] at hblur
      obtain ⟨r', hr', hblur⟩ := hblur
      refine ⟨r', ?_, hs.applyIter hblur⟩
      rw [hs.cursor, scanIter_congr hs.buffer hs.len, hr'])
    hs h

/-- Settles O43: iteration by iteration, the two passes differ in nothing else. -/
theorem messageTableOnlyDecidesValidity : Obligations.MessageTableOnlyDecidesValidity := by
  intro P Q buf s hPQ hle
  obtain ⟨t, ht⟩ := decLoop_of_inv buf.length ((inv_decoderInvariant P).load buf s hle)
  obtain ⟨u, hu, hsame⟩ := decLoop_sameButValidity Q (⟨rfl, rfl, rfl, rfl, rfl, rfl⟩ : SameButValidity _ _) ht
  obtain ⟨hcrc, -⟩ := decLoop_frame ht
  obtain ⟨hcrc', -⟩ := decLoop_frame hu
  exact ⟨_, _, decodeOp_of_decLoop hle ht, decodeOp_of_decLoop (hPQ ▸ hle) hu, hsame.events.symm, hsame.frames.symm,
    hsame.cursor.symm, hsame.phase.symm, hcrc.trans hcrc'.symm⟩

/-! ## The state before the pass -/

/-- The same decoder registers (R20). -/
structure SameDecoder (s s' : State) : Prop where
  phase : s'.dec_phase = s.dec_phase
  buffer : s'.dec_buf = s.dec_buf
  len : s'.dec_len = s.dec_len
  cursor : s'.dec_off = s.dec_off
  out : s'.dec_out = s.dec_out
  events : s'.dec_events = s.dec_events

theorem sameDecoder_loadPass (buf : Bytes) (s s' : State) : SameDecoder (loadPass buf s) (loadPass buf s') :=
  ⟨rfl, rfl, rfl, rfl, rfl, rfl⟩

theorem SameDecoder.applyIter {s s' : State} (h : SameDecoder s s') (r : IterResult) :
    SameDecoder (applyIter s r) (applyIter s' r) where
  phase := by simp only [applyIter_dec_phase, h.len, h.phase]
  buffer := by simp only [applyIter_dec_buf, h.buffer]
  len := by simp only [applyIter_dec_len, h.len]
  cursor := by simp only [applyIter_dec_off]
  out := by simp only [applyIter_dec_out, h.out]
  events := by simp only [applyIter_dec_events, h.events, h.cursor]

theorem decLoop_sameDecoder {P : Params} {n : Nat} {s s' t t' : State} (hs : SameDecoder s s')
    (h : decLoop P n s = some t) (h' : decLoop P n s' = some t') : SameDecoder t t' := by
  obtain ⟨u, hu, hsame⟩ := decLoop_simulation (Q := P) (fun _ _ h => SameDecoder.phase h)
    (fun s s' r hs hr => ⟨r, by rw [hs.cursor, scanIter_congr hs.buffer hs.len, hr], hs.applyIter r⟩) hs h
  cases hu.symm.trans h'
  exact hsame

/-- Settles O45: a pass begins with the same decoder registers from any state, and its iterations read no others. -/
theorem noStateCarriesBetweenPasses : Obligations.NoStateCarriesBetweenPasses := by
  intro buf i s s' t t' hle hi h h'
  obtain rfl | rfl := hi
  · cases (decStartOp_of_le hle s).symm.trans h
    cases (decStartOp_of_le hle s').symm.trans h'
    exact ⟨rfl, rfl, rfl, rfl, rfl, rfl, by simp⟩
  · obtain ⟨hlt, -⟩ | ⟨-, u, hu, rfl⟩ := decodeOp_next h
    · omega
    obtain ⟨hlt, -⟩ | ⟨-, u', hu', rfl⟩ := decodeOp_next h'
    · omega
    have hsame := decLoop_sameDecoder (sameDecoder_loadPass buf s s') hu hu'
    exact ⟨hsame.phase.symm, hsame.buffer.symm, hsame.len.symm, hsame.cursor.symm, hsame.out.symm, hsame.events.symm,
      by simp [hsame.out, hsame.events]⟩

end Sys2Proof.Machine
end

section
/-! PROOFS for spec/70_reset_and_hazards.md: the reset input (R200: O2) and the operations right after reset (R201: O3). -/

namespace Sys2Proof.Machine

/-- Settles O2. -/
theorem resetInputRestoresRegisters : Obligations.ResetInputRestoresRegisters := fun _ _ hport => step_of_reset hport

/-- The CRC of no bytes is the start value complemented. -/
theorem crc16_nil : crc16 [] = 0x0000 := BitVec.xor_self

/-- R201 for ENCODE, between any two states: it reads no register, so its answer is the frame's alone. -/
theorem exec_encode_same_response {f : Frame} {s s' t t' : State} (h : exec (.encode f) s = .next t)
    (h' : exec (.encode f) s' = .next t') :
    ∃ r, t.responses = s.responses ++ [r] ∧ t'.responses = s'.responses ++ [r] := by
  obtain ⟨-, rfl⟩ := encodeOp_next h
  obtain ⟨-, rfl⟩ := encodeOp_next h'
  exact ⟨_, respond_responses s _ _, respond_responses s' _ _⟩

/-- Settles O3: the answers of CRC_READ, DEC_STEP and DEC_STATUS are their general ones (R105, R147, R149) at the reset
values. -/
theorem operationsRightAfterReset : Obligations.OperationsRightAfterReset := by
  have hidle : State.reset.dec_phase ≠ .scan := nofun
  exact ⟨crcReadReturnsComplement State.reset, crc16_nil, decStepOutsidePassIsNoOp State.reset hidle,
    decStatusReturnsRegisters State.reset, fun _ _ _ _ ht hu => exec_encode_same_response ht hu⟩

end Sys2Proof.Machine
end
